-- ==== Sys2Proof/Word.lean ====
section
/-! DEFINITION. The words of the HG-416 and the named choices that its commands carry. -/

namespace Sys2Proof

/-- A byte of a frame, a data byte of the sense line, a pattern or a mask. -/
abbrev Byte := BitVec 8

/-- A 16-bit number that wraps: stamp, case number, case counter, board ID. -/
abbrev Half := BitVec 16

/-- A 24-bit test-header address (R68). -/
abbrev Addr := BitVec 24

/-- Slot n of the rack, as the index n - 1 (R1). -/
abbrev SlotIx := Fin 16

/-- Model slot n, as the index n - 1 (R73). -/
abbrev ModelIx := Fin 8

/-- Priority of a case (R2). -/
inductive Priority where
  | normal | rush
  deriving DecidableEq, Repr

/-- The two heater holders (R92). -/
inductive Holder where
  | a | b
  deriving DecidableEq, Repr

/-- Rail margin (R69). -/
inductive Margin where
  | nominal | low | high
  deriving DecidableEq, Repr

/-- Line rate of the sense line (R67). -/
inductive LineRate where
  | r9600 | r19200 | r57600 | r115200
  deriving DecidableEq, Repr

/-- Class of a component (R68). -/
inductive ComponentClass where
  | memory | storage | processor | io | power | clock | path
  deriving DecidableEq, Repr

/-- Kind of a probe step (R70). -/
inductive StepKind where
  | hail | peek | poke
  deriving DecidableEq, Repr

/-- Pattern of a probe step (R70). -/
inductive Pattern where
  | fixed | addrLow | addrInvert | walkOne
  deriving DecidableEq, Repr

/-- The rack tick: 10 ms, 100 ms or 1 s (R229). -/
inductive TickLength where
  | ms10 | ms100 | s1
  deriving DecidableEq, Repr

/-- The two faults of a complete request frame (R218). -/
inductive FrameFault where
  | length | crc
  deriving DecidableEq, Repr

/-- The levels of CLK and DIN that the Request Port finds, `true` for high (R217). -/
structure LinkLevels where
  clk : Bool
  din : Bool
  deriving DecidableEq, Repr

/-- A whole character as the receiver takes it (R154, R155): data bits, parity bit, stop bit. -/
structure LineChar where
  data : Byte
  parity : Bool
  stop : Bool
  deriving DecidableEq, Repr

/-- How CASE LOOK names its case (R30). -/
inductive CaseName where
  | bySlot (slot : Byte)
  | byNumber (number : Half)
  deriving DecidableEq, Repr

/-- The part of a model that MODEL READ names (R88). -/
inductive ModelPart where
  | header
  | component (index : Byte)
  | stage (index : Byte)
  | step (index program : Byte)
  deriving DecidableEq, Repr

end Sys2Proof
end

