-- ==== Sys2Proof/Syntax.lean ====
section
/-! DEFINITION. The commands of the HG-416: one constructor for each row of spec/opcode_table.json. -/

namespace Sys2Proof

/-- The arguments of a request as its body gives them (R233). `none` is a body whose length or presence bytes do not
fit the arguments; it is answered BAD-ARG (R223, R233). -/
abbrev Body (α : Type) := Option α

/-- Arguments of a request that takes none. -/
structure NoArgs where
  deriving DecidableEq, Repr

/-- The argument of CASE START, PAUSE, RESUME, STOP and CLOSE (R11 to R15, R27). -/
structure SlotArgs where
  slot : Byte
  deriving DecidableEq, Repr

/-- Arguments of CASE OPEN (R10). -/
structure CaseOpenArgs where
  slot : Byte
  model : Byte
  tag : List Byte
  priority : Byte
  deriving DecidableEq, Repr

/-- The argument of CASE FIND (R31). -/
structure CaseFindArgs where
  tag : List Byte
  deriving DecidableEq, Repr

/-- Arguments of CASE AMEND (R28). -/
structure CaseAmendArgs where
  slot : Byte
  stamp : Half
  newTag : Option (List Byte)
  newPriority : Option Byte
  forgetId : Bool
  deriving DecidableEq, Repr

/-- Arguments of SUSPECT LIST (R63). -/
structure SuspectListArgs where
  slot : Byte
  firstRank : Byte
  deriving DecidableEq, Repr

/-- Arguments of SUSPECT NOTE but for its action, which the row names (R59). -/
structure NoteArgs where
  slot : Byte
  stamp : Half
  component : Byte
  deriving DecidableEq, Repr

/-- Arguments of SUSPECT SWEEP (R64). -/
structure SweepArgs where
  model : Byte
  component : Byte
  deriving DecidableEq, Repr

/-- Arguments of REWORK (R55): the range and the component are each optional arguments. -/
structure ReworkArgs where
  slot : Byte
  stamp : Half
  range : Option (Addr × Addr)
  component : Option Byte
  deriving DecidableEq, Repr

/-- Arguments of MODEL BEGIN (R76). -/
structure ModelBeginArgs where
  name : List Byte
  lineRate : Byte
  retries : Byte
  confirmThreshold : Byte
  confirmSpread : Byte
  clearCount : Half
  bootAllowance : Half
  strikeLimit : Byte
  restTime : Byte
  riseAllowance : Byte
  sagAllowance : Byte
  cycles : Byte
  path : Byte
  rail : Byte
  hang : Byte
  deriving DecidableEq, Repr

/-- Arguments of MODEL ADD COMPONENT (R77). -/
structure AddComponentArgs where
  designator : List Byte
  cls : Byte
  range : Option (Addr × Addr)
  waitClass : Option Byte
  deriving DecidableEq, Repr

/-- Arguments of MODEL ADD STAGE (R78). -/
structure AddStageArgs where
  duration : BitVec 24
  margin : Byte
  dutyA : Byte
  dutyB : Byte
  halfPeriod : Half
  units : Byte
  program : Byte
  window : Half
  deriving DecidableEq, Repr

/-- Arguments of MODEL ADD STEP (R79). -/
structure AddStepArgs where
  program : Byte
  kind : Byte
  start : Addr
  count : Half
  pattern : Byte
  value : Byte
  mask : Byte
  bound : Byte
  deriving DecidableEq, Repr

/-- The argument of MODEL COMMIT and MODEL LOCK (R81, R85). -/
structure ModelSlotArgs where
  model : Byte
  deriving DecidableEq, Repr

/-- Arguments of MODEL READ (R88). -/
structure ModelReadArgs where
  model : Byte
  part : ModelPart
  deriving DecidableEq, Repr

/-- Arguments of HEATER TRIM (R109). -/
structure TrimArgs where
  slot : Byte
  duty : Byte
  deriving DecidableEq, Repr

/-- Arguments of RACK SETUP (R229). -/
structure SetupArgs where
  tick : Byte
  budget : Byte
  attention : Byte
  deriving DecidableEq, Repr

/-- The commands. A request row is the action of the last byte of a good frame of that request (R219; log entry 6).
The samples a row carries beside the operands of the table (DIN, BHOLD, BSEL at both lines low) have a default (log entry 15). -/
inductive Instr where
  /-- CASE OPEN (R10) -/
  | caseOpen (args : Body CaseOpenArgs)
  /-- CASE START (R11) -/
  | caseStart (args : Body SlotArgs)
  /-- CASE PAUSE (R12) -/
  | casePause (args : Body SlotArgs)
  /-- CASE RESUME (R13, R14) -/
  | caseResume (args : Body SlotArgs)
  /-- CASE STOP (R15) -/
  | caseStop (args : Body SlotArgs)
  /-- CASE CLOSE (R27) -/
  | caseClose (args : Body SlotArgs)
  /-- CASE LOOK (R30) -/
  | caseLook (args : Body CaseName)
  /-- CASE FIND (R31) -/
  | caseFind (args : Body CaseFindArgs)
  /-- CASE AMEND (R28) -/
  | caseAmend (args : Body CaseAmendArgs)
  /-- SUSPECT LIST (R63) -/
  | suspectList (args : Body SuspectListArgs)
  /-- SUSPECT NOTE with action FAIL (R60); its `none` also stands for an action that is none of the three (R59) -/
  | suspectNoteFail (args : Body NoteArgs)
  /-- SUSPECT NOTE with action CONFIRM (R61) -/
  | suspectNoteConfirm (args : Body NoteArgs)
  /-- SUSPECT NOTE with action CLEAR (R62) -/
  | suspectNoteClear (args : Body NoteArgs)
  /-- SUSPECT SWEEP (R64) -/
  | suspectSweep (args : Body SweepArgs)
  /-- REWORK (R55 to R58) -/
  | rework (args : Body ReworkArgs)
  /-- MODEL BEGIN (R76) -/
  | modelBegin (args : Body ModelBeginArgs)
  /-- MODEL ADD COMPONENT (R77) -/
  | modelAddComponent (args : Body AddComponentArgs)
  /-- MODEL ADD STAGE (R78) -/
  | modelAddStage (args : Body AddStageArgs)
  /-- MODEL ADD STEP (R79) -/
  | modelAddStep (args : Body AddStepArgs)
  /-- MODEL COMMIT (R81, R82) -/
  | modelCommit (args : Body ModelSlotArgs)
  /-- MODEL DISCARD (R80) -/
  | modelDiscard (args : Body NoArgs)
  /-- MODEL READ (R88) -/
  | modelRead (args : Body ModelReadArgs)
  /-- MODEL LOCK (R85) -/
  | modelLock (args : Body ModelSlotArgs)
  /-- STORE CLEAR (R86) -/
  | storeClear (args : Body NoArgs)
  /-- HEATER TRIM (R109) -/
  | heaterTrim (args : Body TrimArgs)
  /-- RACK QUIESCE (R111) -/
  | rackQuiesce (args : Body NoArgs)
  /-- RACK WAKE (R116) -/
  | rackWake (args : Body NoArgs)
  /-- BUDGET LOOK (R131) -/
  | budgetLook (args : Body NoArgs)
  /-- RACK SETUP (R229) -/
  | rackSetup (args : Body SetupArgs)
  /-- RACK STATUS (R231) -/
  | rackStatus (args : Body NoArgs)
  /-- RACK RESTART (R230) -/
  | rackRestart (args : Body NoArgs)
  /-- NOTICES (R226) -/
  | notices (args : Body NoArgs)
  /-- a good frame whose code names no request (R219) -/
  | unknownRequest (code : Byte)
  /-- a complete frame with a length or CRC fault (R218) -/
  | badFrame (fault : FrameFault)
  /-- a frame that completes while an answer is pending (R222) -/
  | frameCollision
  /-- a fall of SEL (R217) -/
  | selFall
  /-- a rise of SEL (R217, R218) -/
  | selRise
  /-- the levels of CLK and DIN in a SEL period, one after the other; the answer is read at the rising edge of CLK that makes
  its last byte whole (R217, R220; log entry 6) -/
  | answerRead (link : List LinkLevels := [])
  /-- a hard reset, with the WIDTH strap sampled at its end, `true` for high (R227) -/
  | hardReset (widthHigh : Bool)
  /-- the start-up check ends, having found these records not to agree with their check bytes (R89) -/
  | startupCheckEnd (badRecords : List ModelIx)
  /-- programming ends, with the outcome of its read-back (R83) -/
  | programmingEnd (readBackGood : Bool)
  /-- the writing of a lock mark ends (R85) -/
  | lockWriteEnd
  /-- the store clear erases the marks of its next slot (R87) -/
  | storeClearSlotErase
  /-- the store clear erases the record area and checks that the slot reads as erased (R87) -/
  | storeClearSlotCheck (readsErased : Bool)
  /-- a rack tick (R95) -/
  | rackTick
  /-- the stage timer of a slot reaches the duration (R96) -/
  | stageTimerMatch (slot : SlotIx)
  /-- the alternation counter reaches the half-period (R106) -/
  | heaterSwitch (slot : SlotIx)
  /-- the rise counter reaches the rise allowance (R138) -/
  | riseAllowanceExpiry (slot : SlotIx)
  /-- the sag counter reaches the sag allowance (R140) -/
  | sagAllowanceExpiry (slot : SlotIx)
  /-- the rest counter reaches the rest time (R147) -/
  | restEnd (slot : SlotIx)
  /-- the boot counter reaches the boot allowance (R196) -/
  | bootFailure (slot : SlotIx)
  /-- the beat counter reaches its window (R199) -/
  | hang (slot : SlotIx)
  /-- the tick wait of the HAIL loop ends (R189) -/
  | hailTickWaitEnd (slot : SlotIx)
  /-- a converter scan: RSn in microvolts and OCn, `true` for asserted (R135) -/
  | railScan (slot : SlotIx) (microvolts : Nat) (overcurrent : Bool)
  /-- a millisecond sample that finds LTn high; the twentieth in a row opens a CLOSED latch (R24, R148) -/
  | latchOpen (slot : SlotIx)
  /-- a millisecond sample that finds LTn low; the twentieth in a row closes an OPEN latch (R25, R148) -/
  | latchClose (slot : SlotIx)
  /-- a sample of HBn, `true` for high (R194) -/
  | heartbeatEdge (slot : SlotIx) (level : Bool)
  /-- a millisecond sample that finds BHOLD high and BSEIZE low, with BSEL reading this slot (R203, R205) -/
  | benchHold (bsel : SlotIx)
  /-- a millisecond sample that finds BSEIZE high, with BHOLD at this level and BSEL reading this slot (R203, R207, R208) -/
  | benchSeize (bsel : SlotIx) (bhold : Bool := false)
  /-- a millisecond sample that finds both bench lines low, with BSEL reading this slot; it withdraws a pending HOLD when both
  debounced levels are low (R203, R207) -/
  | holdWithdrawal (bsel : SlotIx := 0)
  /-- a millisecond sample that finds both bench lines low, with BSEL reading this slot; it releases a grant when both
  debounced levels are low (R203, R211) -/
  | benchRelease (bsel : SlotIx := 0)
  /-- one character time has passed since the last end (R157) -/
  | exchangeSpacingEnd (slot : SlotIx)
  /-- the receiver's looks at SNSn, up to a whole character that arrives in SEND (R155, R156; log entry 35) -/
  | echoReceived (slot : SlotIx) (looks : List Bool)
  /-- no whole echo within 2 character times (R156) -/
  | echoTimeout (slot : SlotIx)
  /-- the receiver's looks at SNSn, up to a whole character that arrives in REPLY (R155, R163; log entry 35) -/
  | replyByteReceived (slot : SlotIx) (looks : List Bool)
  /-- the reply timeout runs out (R163) -/
  | replyTimeout (slot : SlotIx)
  /-- looks at SNSn up to a whole character that arrives in IDLE, BREAK, SETTLE or PASSED (R171; log entry 35) -/
  | strayCharacter (slot : SlotIx) (looks : List Bool)
  /-- the BREAK has lasted 2 character times (R166) -/
  | breakEnd (slot : SlotIx)
  /-- the SETTLE has lasted 1 character time (R166) -/
  | settleEnd (slot : SlotIx)
  deriving DecidableEq, Repr

end Sys2Proof
end

