-- ==== Sys2Proof/WellFormed.lean ====
section
/-! DEFINITION. Which commands a request frame can carry: the limits of R218 and R233 on lengths and codes. -/

namespace Sys2Proof

/-- A string argument is a count byte followed by its characters (R233), so it has at most 255. -/
def stringFits (s : List Byte) : Bool := s.length ≤ 255

/-- The bytes an optional argument takes: its presence byte and, when present, its own bytes (R233). -/
def optionalBytes {α : Type} (size : α → Nat) : Option α → Nat
  | none => 1
  | some x => 1 + size x

/-- The bytes a string argument takes (R233). -/
def stringBytes (s : List Byte) : Nat := 1 + s.length

/-- The codes of the request catalogue (R219). -/
def isRequestCode (code : Byte) : Bool :=
  let c := code.toNat
  (0x10 ≤ c && c ≤ 0x18) || (0x20 ≤ c && c ≤ 0x23) || (0x30 ≤ c && c ≤ 0x38)
    || (0x40 ≤ c && c ≤ 0x42) || c == 0x50 || (0x60 ≤ c && c ≤ 0x63)

/-- A body is at most 250 bytes, or the frame has a length fault (R218). -/
def bodyFits (n : Nat) : Bool := n ≤ 250

/-- A command is well formed when a frame or an event of the part can carry it. -/
def Instr.wf : Instr → Bool
  | .caseOpen (some a) => stringFits a.tag && bodyFits (3 + stringBytes a.tag)
  | .caseFind (some a) => stringFits a.tag && bodyFits (stringBytes a.tag)
  | .caseAmend (some a) =>
    (match a.newTag with | none => true | some t => stringFits t)
      && bodyFits (4 + optionalBytes stringBytes a.newTag + optionalBytes (fun _ => 1) a.newPriority)
  | .modelBegin (some a) => stringFits a.name && bodyFits (16 + stringBytes a.name)
  | .modelAddComponent (some a) =>
    stringFits a.designator
      && bodyFits (1 + stringBytes a.designator + optionalBytes (fun _ => 6) a.range
          + optionalBytes (fun _ => 1) a.waitClass)
  | .unknownRequest code => code != 0 && !isRequestCode code
  | .startupCheckEnd bad => bad.Nodup
  | .caseOpen none | .caseStart _ | .casePause _ | .caseResume _ | .caseStop _ | .caseClose _ | .caseLook _
  | .caseFind none | .caseAmend none | .suspectList _ | .suspectNoteFail _ | .suspectNoteConfirm _
  | .suspectNoteClear _ | .suspectSweep _ | .rework _ | .modelBegin none | .modelAddComponent none
  | .modelAddStage _ | .modelAddStep _ | .modelCommit _ | .modelDiscard _ | .modelRead _ | .modelLock _
  | .storeClear _ | .heaterTrim _ | .rackQuiesce _ | .rackWake _ | .budgetLook _ | .rackSetup _ | .rackStatus _
  | .rackRestart _ | .notices _ | .badFrame _ | .frameCollision | .selFall | .selRise | .answerRead _
  | .hardReset _ | .programmingEnd _ | .lockWriteEnd | .storeClearSlotErase | .storeClearSlotCheck _ | .rackTick
  | .stageTimerMatch _ | .heaterSwitch _ | .riseAllowanceExpiry _ | .sagAllowanceExpiry _ | .restEnd _
  | .bootFailure _ | .hang _ | .hailTickWaitEnd _ | .railScan _ _ _ | .latchOpen _ | .latchClose _
  | .heartbeatEdge _ _ | .benchHold _ | .benchSeize _ _ | .holdWithdrawal _ | .benchRelease _
  | .exchangeSpacingEnd _ | .echoReceived _ _ | .echoTimeout _ | .replyByteReceived _ _ | .replyTimeout _
  | .strayCharacter _ _ | .breakEnd _ | .settleEnd _ => true

end Sys2Proof
end

