-- ==== Sys2Proof/Decode.lean ====
section
/-! DEFINITION. From bytes to commands. No row of the opcode table carries bits, so `decodeTableWord` spells none;
the request frames of R217 to R219 and R233 are decoded by `frameCommand`. -/

namespace Sys2Proof

/-- The command that a word spells by the table's bits. The table gives no row any bits. -/
def decodeTableWord (_nbits _w : Nat) : Option Instr := none

/-! ## The check byte (R218) -/

/-- One bit of the CRC-8 with polynomial x⁸ + x² + x + 1, most significant bit first (R218). -/
def crc8Bit (c : Byte) : Byte := if c.msb then (c <<< 1) ^^^ 0x07#8 else c <<< 1

/-- One byte of the CRC-8 (R218). -/
def crc8Byte (c b : Byte) : Byte :=
  crc8Bit (crc8Bit (crc8Bit (crc8Bit (crc8Bit (crc8Bit (crc8Bit (crc8Bit (c ^^^ b))))))))

/-- The CRC-8 of a list of bytes, initial value 00h, no reflection and no final inversion (R218). -/
def crc8 (bytes : List Byte) : Byte := bytes.foldl crc8Byte 0#8

/-! ## Frames (R217, R218) -/

/-- What the port makes of the DIN bytes of a SEL period. -/
inductive FrameJudgement where
  | idle
  | incomplete
  | faulty (fault : FrameFault)
  | good (code : Byte) (body : List Byte)
  deriving DecidableEq, Repr

/-- The judgement of R218 on the DIN bytes received so far in a SEL period; bytes after the end of the frame are
ignored, and a first byte of 00h is the idle code (R217). -/
def judgeFrame : List Byte → FrameJudgement
  | [] => .incomplete
  | [code] => if code = 0 then .idle else .incomplete
  | code :: len :: rest =>
    if code = 0 then .idle
    else if len.toNat > 250 then .faulty .length
    else
      let body := rest.take len.toNat
      match rest.drop len.toNat with
      | [] => .incomplete
      | check :: _ => if crc8 (code :: len :: body) = check then .good code body else .faulty .crc

/-! ## Arguments (R233) -/

/-- A one-byte argument. -/
def takeByte : List Byte → Option (Byte × List Byte)
  | [] => none
  | b :: rest => some (b, rest)

/-- A two-byte argument, high byte first. -/
def takeHalf : List Byte → Option (Half × List Byte)
  | h :: l :: rest => some (h ++ l, rest)
  | _ => none

/-- A three-byte argument, high byte first. -/
def takeAddr : List Byte → Option (Addr × List Byte)
  | h :: m :: l :: rest => some (h ++ m ++ l, rest)
  | _ => none

/-- A string: a count byte followed by its characters. -/
def takeString : List Byte → Option (List Byte × List Byte)
  | [] => none
  | n :: rest => if n.toNat ≤ rest.length then some (rest.take n.toNat, rest.drop n.toNat) else none

/-- An optional argument: a byte of 1 and the argument, or a byte of 0. Another presence byte fits no argument. -/
def takeOptional {α : Type} (take : List Byte → Option (α × List Byte)) :
    List Byte → Option (Option α × List Byte)
  | [] => none
  | mark :: rest =>
    if mark = 0 then some (none, rest)
    else if mark = 1 then (take rest).map fun (x, rest) => (some x, rest)
    else none

/-- An argument that is present or not and has no value of its own (the forget mark of CASE AMEND). -/
def takeMark : List Byte → Option (Bool × List Byte)
  | [] => none
  | mark :: rest => if mark = 0 then some (false, rest) else if mark = 1 then some (true, rest) else none

/-- An address range, first then last. -/
def takeRange (b : List Byte) : Option ((Addr × Addr) × List Byte) := do
  let (first, b) ← takeAddr b
  let (last, b) ← takeAddr b
  pure ((first, last), b)

/-- The arguments fit the body only when no byte is left over (R233). -/
def whole {α : Type} (x : α) : List Byte → Option α
  | [] => some x
  | _ :: _ => none

def parseNoArgs (b : List Byte) : Body NoArgs := whole ⟨⟩ b

def parseSlot (b : List Byte) : Body SlotArgs := do
  let (slot, b) ← takeByte b
  whole ⟨slot⟩ b

def parseCaseOpen (b : List Byte) : Body CaseOpenArgs := do
  let (slot, b) ← takeByte b
  let (model, b) ← takeByte b
  let (tag, b) ← takeString b
  let (priority, b) ← takeByte b
  whole ⟨slot, model, tag, priority⟩ b

/-- The selector is a choice: 0 by slot, 1 by case number (R30, R233). -/
def parseCaseLook (b : List Byte) : Body CaseName := do
  let (selector, b) ← takeByte b
  if selector = 0 then do
    let (slot, b) ← takeByte b
    whole (.bySlot slot) b
  else if selector = 1 then do
    let (number, b) ← takeHalf b
    whole (.byNumber number) b
  else none

def parseCaseFind (b : List Byte) : Body CaseFindArgs := do
  let (tag, b) ← takeString b
  whole ⟨tag⟩ b

def parseCaseAmend (b : List Byte) : Body CaseAmendArgs := do
  let (slot, b) ← takeByte b
  let (stamp, b) ← takeHalf b
  let (newTag, b) ← takeOptional takeString b
  let (newPriority, b) ← takeOptional takeByte b
  let (forgetId, b) ← takeMark b
  whole ⟨slot, stamp, newTag, newPriority, forgetId⟩ b

def parseSuspectList (b : List Byte) : Body SuspectListArgs := do
  let (slot, b) ← takeByte b
  let (firstRank, b) ← takeByte b
  whole ⟨slot, firstRank⟩ b

/-- SUSPECT NOTE (R59): the action, a choice of FAIL, CONFIRM and CLEAR, tells the row. An action that is none of the
three, like a body that does not fit, is BAD-ARG. -/
def parseNote (b : List Byte) : Instr :=
  let parsed : Option (NoteArgs × Byte) := do
    let (slot, b) ← takeByte b
    let (stamp, b) ← takeHalf b
    let (component, b) ← takeByte b
    let (action, b) ← takeByte b
    whole (⟨slot, stamp, component⟩, action) b
  match parsed with
  | none => .suspectNoteFail none
  | some (a, action) =>
    if action = 0 then .suspectNoteFail (some a)
    else if action = 1 then .suspectNoteConfirm (some a)
    else if action = 2 then .suspectNoteClear (some a)
    else .suspectNoteFail none

def parseSweep (b : List Byte) : Body SweepArgs := do
  let (model, b) ← takeByte b
  let (component, b) ← takeByte b
  whole ⟨model, component⟩ b

def parseRework (b : List Byte) : Body ReworkArgs := do
  let (slot, b) ← takeByte b
  let (stamp, b) ← takeHalf b
  let (range, b) ← takeOptional takeRange b
  let (component, b) ← takeOptional takeByte b
  whole ⟨slot, stamp, range, component⟩ b

def parseModelBegin (b : List Byte) : Body ModelBeginArgs := do
  let (name, b) ← takeString b
  let (lineRate, b) ← takeByte b
  let (retries, b) ← takeByte b
  let (confirmThreshold, b) ← takeByte b
  let (confirmSpread, b) ← takeByte b
  let (clearCount, b) ← takeHalf b
  let (bootAllowance, b) ← takeHalf b
  let (strikeLimit, b) ← takeByte b
  let (restTime, b) ← takeByte b
  let (riseAllowance, b) ← takeByte b
  let (sagAllowance, b) ← takeByte b
  let (cycles, b) ← takeByte b
  let (path, b) ← takeByte b
  let (rail, b) ← takeByte b
  let (hang, b) ← takeByte b
  whole ⟨name, lineRate, retries, confirmThreshold, confirmSpread, clearCount, bootAllowance, strikeLimit, restTime,
    riseAllowance, sagAllowance, cycles, path, rail, hang⟩ b

def parseAddComponent (b : List Byte) : Body AddComponentArgs := do
  let (designator, b) ← takeString b
  let (cls, b) ← takeByte b
  let (range, b) ← takeOptional takeRange b
  let (waitClass, b) ← takeOptional takeByte b
  whole ⟨designator, cls, range, waitClass⟩ b

def parseAddStage (b : List Byte) : Body AddStageArgs := do
  let (duration, b) ← takeAddr b
  let (margin, b) ← takeByte b
  let (dutyA, b) ← takeByte b
  let (dutyB, b) ← takeByte b
  let (halfPeriod, b) ← takeHalf b
  let (units, b) ← takeByte b
  let (program, b) ← takeByte b
  let (window, b) ← takeHalf b
  whole ⟨duration, margin, dutyA, dutyB, halfPeriod, units, program, window⟩ b

def parseAddStep (b : List Byte) : Body AddStepArgs := do
  let (program, b) ← takeByte b
  let (kind, b) ← takeByte b
  let (start, b) ← takeAddr b
  let (count, b) ← takeHalf b
  let (pattern, b) ← takeByte b
  let (value, b) ← takeByte b
  let (mask, b) ← takeByte b
  let (bound, b) ← takeByte b
  whole ⟨program, kind, start, count, pattern, value, mask, bound⟩ b

def parseModelSlot (b : List Byte) : Body ModelSlotArgs := do
  let (model, b) ← takeByte b
  whole ⟨model⟩ b

/-- The part is a choice of header, component, stage and step, followed by its indices (R88, R233). -/
def parseModelRead (b : List Byte) : Body ModelReadArgs := do
  let (model, b) ← takeByte b
  let (part, b) ← takeByte b
  if part = 0 then whole ⟨model, .header⟩ b
  else if part = 1 then do
    let (i, b) ← takeByte b
    whole ⟨model, .component i⟩ b
  else if part = 2 then do
    let (i, b) ← takeByte b
    whole ⟨model, .stage i⟩ b
  else if part = 3 then do
    let (i, b) ← takeByte b
    let (p, b) ← takeByte b
    whole ⟨model, .step i p⟩ b
  else none

def parseTrim (b : List Byte) : Body TrimArgs := do
  let (slot, b) ← takeByte b
  let (duty, b) ← takeByte b
  whole ⟨slot, duty⟩ b

def parseSetup (b : List Byte) : Body SetupArgs := do
  let (tick, b) ← takeByte b
  let (budget, b) ← takeByte b
  let (attention, b) ← takeByte b
  whole ⟨tick, budget, attention⟩ b

/-- The request that a code names, with its body's arguments (R219). -/
def requestOf (code : Byte) (body : List Byte) : Instr :=
  match code.toNat with
  | 0x10 => .caseOpen (parseCaseOpen body)
  | 0x11 => .caseStart (parseSlot body)
  | 0x12 => .casePause (parseSlot body)
  | 0x13 => .caseResume (parseSlot body)
  | 0x14 => .caseStop (parseSlot body)
  | 0x15 => .caseClose (parseSlot body)
  | 0x16 => .caseLook (parseCaseLook body)
  | 0x17 => .caseFind (parseCaseFind body)
  | 0x18 => .caseAmend (parseCaseAmend body)
  | 0x20 => .suspectList (parseSuspectList body)
  | 0x21 => parseNote body
  | 0x22 => .suspectSweep (parseSweep body)
  | 0x23 => .rework (parseRework body)
  | 0x30 => .modelBegin (parseModelBegin body)
  | 0x31 => .modelAddComponent (parseAddComponent body)
  | 0x32 => .modelAddStage (parseAddStage body)
  | 0x33 => .modelAddStep (parseAddStep body)
  | 0x34 => .modelCommit (parseModelSlot body)
  | 0x35 => .modelDiscard (parseNoArgs body)
  | 0x36 => .modelRead (parseModelRead body)
  | 0x37 => .modelLock (parseModelSlot body)
  | 0x38 => .storeClear (parseNoArgs body)
  | 0x40 => .heaterTrim (parseTrim body)
  | 0x41 => .rackQuiesce (parseNoArgs body)
  | 0x42 => .rackWake (parseNoArgs body)
  | 0x50 => .budgetLook (parseNoArgs body)
  | 0x60 => .rackSetup (parseSetup body)
  | 0x61 => .rackStatus (parseNoArgs body)
  | 0x62 => .rackRestart (parseNoArgs body)
  | 0x63 => .notices (parseNoArgs body)
  | _ => .unknownRequest code

/-- The command that the DIN bytes of a SEL period make, at the byte that completes their frame: a request, an unknown
request or a bad frame (R218, R219); none for an idle period and for a frame that is not complete. Whether the
command meets a pending answer is for the machine (R222). -/
def frameCommand (bytes : List Byte) : Option Instr :=
  match judgeFrame bytes with
  | .idle => none
  | .incomplete => none
  | .faulty f => some (.badFrame f)
  | .good code body => some (requestOf code body)

end Sys2Proof
end

