-- ==== Sys2Proof/Config.lean ====
section
/-! DEFINITION. What an HG-416 fixes for itself: the sizes the manual gives, and the one value it leaves open. -/

namespace Sys2Proof.Config

/-- Entries of the Suspect Pool (R34). -/
def poolSize : Nat := 192

/-- Upper limit of a 16-bit saturating count (R2, R35). -/
def max16 : Nat := 65535

/-- Upper limit of an 8-bit saturating count (R2, R35). -/
def max8 : Nat := 255

/-- Upper limit of the stress total and of the program passes (R2). -/
def max32 : Nat := 4294967295

/-- Millisecond samples in a row that change a debounced latch state (R148). -/
def latchSamples : Nat := 20

/-- Millisecond samples in a row that change the debounced level of a bench line (R203). -/
def benchSamples : Nat := 5

/-- FREE VALUE (log entry 5). At RACK WAKE the grant pass and the held advances "may be taken in any order among
themselves" (R116). This key orders them: `draw` is the model's counter, `action` is 0 for the grant pass and the
slot number for the held advance of that slot. It has no body, so nothing can rest on an order. -/
opaque wakeKey (draw action : Nat) : Nat

end Sys2Proof.Config
end

