-- ==== Sys2Proof/Machine/State.lean ====
section
/-! DEFINITION. The state of the HG-416 as plain data, and its values after a hard reset. -/

namespace Sys2Proof.Machine

/-! ## Board models (R67 to R70) -/

/-- The header of a model record (R67). -/
structure Header where
  name : List Byte
  lineRate : LineRate
  retries : Nat
  confirmThreshold : Nat
  confirmSpread : Nat
  clearCount : Nat
  bootAllowance : Nat
  strikeLimit : Nat
  restTime : Nat
  riseAllowance : Nat
  sagAllowance : Nat
  cycles : Nat
  path : Nat
  rail : Nat
  hang : Nat
  deriving DecidableEq, Repr

/-- An entry of the component map (R68); `range` is its address range, first and last. -/
structure Component where
  designator : List Byte
  cls : ComponentClass
  range : Option (Addr × Addr)
  waitClass : Nat
  deriving DecidableEq, Repr

/-- A stage of the profile (R69). -/
structure Stage where
  duration : Nat
  margin : Margin
  dutyA : Nat
  dutyB : Nat
  halfPeriod : Nat
  units : Nat
  program : Nat
  window : Nat
  deriving DecidableEq, Repr

/-- A probe step (R70). The kind, the pattern and the bound-to-next mark are held as their codes, as R79 stores them as
given. -/
structure Step where
  kind : Byte
  start : Addr
  count : Nat
  pattern : Byte
  value : Byte
  mask : Byte
  bound : Byte
  deriving DecidableEq, Repr

/-- A model record: header, component map, stages and four probe programs. -/
structure Model where
  header : Header
  components : List Component
  stages : List Stage
  programs : Vector (List Step) 4
  deriving DecidableEq, Repr

/-! ## The Model Store (R73 to R75, R83 to R87) -/

/-- State of a model slot (R73). -/
inductive ModelSlotState where
  | blank | programming | valid | locked | damaged
  deriving DecidableEq, Repr

/-- Progress mark of a model slot (R73). -/
inductive ProgressMark where
  | absent | begun | complete
  deriving DecidableEq, Repr

/-- A model slot: its state, and what its non-volatile memory holds (R73, R83). -/
structure ModelSlot where
  state : ModelSlotState
  progress : ProgressMark
  /-- the lock mark is complete -/
  lockMark : Bool
  model : Option Model
  deriving DecidableEq, Repr

/-- The store write in progress (R84). `clear` holds the slot being taken, and whether its marks are erased. -/
inductive StoreWrite where
  | programming (slot : ModelIx)
  | lockMark (slot : ModelIx)
  | clear (slot : ModelIx) (marksErased : Bool)
  deriving DecidableEq, Repr

/-- The Model Store; a staging record of `none` is the condition NONE (R75). -/
structure Store where
  slots : Vector ModelSlot 8
  staging : Option Model
  write : Option StoreWrite
  deriving DecidableEq, Repr

/-! ## Suspects (R35) -/

/-- A stage position (R92). -/
structure Position where
  cycle : Nat
  stage : Nat
  deriving DecidableEq, Repr

/-- State of a suspect; `opened` is OPEN (R35). -/
inductive SuspectState where
  | opened | confirmed | cleared | reworked
  deriving DecidableEq, Repr

/-- The symptoms of FAIL items, in the order of R35. -/
inductive Symptom where
  | miscompare | parity | noecho | silent | sag | trip | norise | hang | noboot | manual
  deriving DecidableEq, Repr

/-- A suspect record (R35). Its case number is that of the case whose rank list holds it. The symptoms set is held
as the bits of R233. -/
structure Suspect where
  component : Nat
  state : SuspectState
  serial : Nat
  fails : Nat
  hotFails : Nat
  passes : Nat
  quiet : Nat
  positionsSeen : Nat
  firstSeen : Option Position
  lastSeen : Option Position
  symptoms : BitVec 10
  recurred : Bool
  deriving DecidableEq, Repr

/-! ## Cases (R2) -/

/-- Fault cause (R2); `hang` is HANG. -/
inductive FaultCause where
  | rail | hang | swapped | restart
  deriving DecidableEq, Repr

/-- End cause (R2). -/
inductive EndCause where
  | complete | stopped
  deriving DecidableEq, Repr

/-- Verdict (R29). -/
inductive Verdict where
  | pass | marginal | fail
  deriving DecidableEq, Repr

/-- State of an open case (R2); EMPTY is the absence of a record. The causes and the verdict are present in the states
that R2 gives them. -/
inductive CaseState where
  | ready | waiting | powering | running | paused | resting
  | faulted (cause : FaultCause)
  | pulled
  | done (cause : EndCause) (verdict : Verdict)
  deriving DecidableEq, Repr

/-- The stay of the Stage Engine (R92), present while a case is open. -/
structure Stay where
  position : Position
  elapsed : Nat
  draining : Bool
  heldAdvance : Bool
  railClean : Bool
  hangClean : Bool
  holderA : Nat
  holderB : Nat
  driving : Holder
  alternation : Nat
  deriving DecidableEq, Repr

/-- What a slot holds while its case is open (R2, R37, R92). -/
structure CaseRecord where
  number : Half
  state : CaseState
  model : ModelIx
  tag : List Byte
  boardId : Option Half
  priority : Priority
  stay : Stay
  stress : Nat
  sagCount : Nat
  tripCount : Nat
  strikes : Nat
  passes : Nat
  suspects : List Suspect
  nextSerial : Nat
  unplaced : Nat
  poolFull : Bool
  deriving DecidableEq, Repr

/-! ## Slot blocks -/

/-- Rail state (R133). -/
inductive RailState where
  | off | rising | good | sag | tripped
  deriving DecidableEq, Repr

/-- The Rail Monitor (R133); a rest counter of `none` is stopped. The sag and trip counts are in the case record. -/
structure Rail where
  state : RailState
  margin : Margin
  rise : Nat
  sag : Nat
  rest : Option Nat
  deriving DecidableEq, Repr

/-- The two forms of PEEK and POKE (R157). -/
inductive Form where
  | atForm | onForm
  deriving DecidableEq, Repr

/-- What an exchange does (R153): its kind with the fields present for that kind. -/
inductive Probe where
  | hail
  | peek (asked sent : Form) (target : Addr)
  | poke (asked sent : Form) (target : Addr) (data : Byte)
  deriving DecidableEq, Repr

/-- The exchange in flight (R153). `sent` counts the characters sent on this attempt; it is 0 while the first
character waits out the spacing of R157. -/
structure Exchange where
  probe : Probe
  waitClass : Nat
  attempt : Nat
  sent : Nat
  returned : List Byte
  deriving DecidableEq, Repr

/-- Line state (R153). -/
inductive LineState where
  | idle | send | reply | breaking | settle | passed
  deriving DecidableEq, Repr

/-- The last end (R153), as far as R157 uses it: absent, less than one character time ago, or longer ago. -/
inductive LastEnd where
  | absent | within | passed
  deriving DecidableEq, Repr

/-- The Sense Line Controller (R153). -/
structure Line where
  state : LineState
  exchange : Option Exchange
  pointer : Addr
  sure : Bool
  lastEnd : LastEnd
  deriving DecidableEq, Repr

/-- Mode of the Probe Sequencer (R175). -/
inductive SeqMode where
  | off | hail | program
  deriving DecidableEq, Repr

/-- The Probe Sequencer (R175). In flight and the stop reasons are views of other state. `waitTickSeen` is the
model's own: a rack tick has come since the tick wait began, so that its end is due (R189). -/
structure Sequencer where
  mode : SeqMode
  step : Nat
  index : Nat
  runStart : Option Nat
  lastExchange : Option (Nat × Nat)
  tickWait : Bool
  waitTickSeen : Bool
  deriving DecidableEq, Repr

/-- The Heartbeat Watch (R193); a counter of `none` is disarmed. -/
structure Watch where
  beat : Option Nat
  window : Nat
  boot : Option Nat
  lastSample : Option Bool
  deriving DecidableEq, Repr

/-- One slot of the rack: its stamp and record, and its slot blocks. `latchCount` counts the millisecond samples in a row
that have disagreed with the debounced latch state (R148). -/
structure Slot where
  stamp : Half
  record : Option CaseRecord
  units : Nat
  rail : Rail
  line : Line
  seq : Sequencer
  watch : Watch
  latchClosed : Bool
  latchCount : Nat
  deriving DecidableEq, Repr

/-! ## The rack -/

/-- An entry of the Budget Queue (R121). -/
structure QueueEntry where
  slot : SlotIx
  number : Half
  need : Nat
  priority : Priority
  throughRest : Bool
  deriving DecidableEq, Repr

/-- Rack quiesce state (R110). -/
inductive QuiesceState where
  | active | quiescing | quiesced
  deriving DecidableEq, Repr

/-- Bench state with its slot field (R204). -/
inductive BenchState where
  | idle
  | pending (slot : SlotIx)
  | granted (slot : SlotIx)
  deriving DecidableEq, Repr

/-- The Bench Port (R204): its state and the debounced levels of BHOLD and BSEIZE, each with the count of millisecond
samples in a row that have disagreed with it (R203). -/
structure Bench where
  state : BenchState
  hold : Bool
  holdCount : Nat
  seize : Bool
  seizeCount : Nat
  deriving DecidableEq, Repr

/-- Rack flags of the notice set (R224). -/
inductive RackFlag where
  | quiesced | storeDone | storeFailed | restarted
  deriving DecidableEq, Repr

/-- The notice set, as the bits of the NOTICES body (R224, R233). -/
structure NoticeSet where
  slots : BitVec 16
  flags : BitVec 4
  deriving DecidableEq, Repr

/-- The slots and what they share: WIDTH as sampled (`true` for high), the budget and the Budget Queue, the quiesce
state, the Bench Port and the notice set. -/
structure Rack where
  wide : Bool
  budget : Option Nat
  slots : Vector Slot 16
  queue : List QueueEntry
  quiesce : QuiesceState
  bench : Bench
  notices : NoticeSet
  deriving DecidableEq, Repr

/-! ## The Request Port (R216) -/

/-- Rack state (R216). -/
inductive RackState where
  | starting | unset | set
  deriving DecidableEq, Repr

/-- Answer statuses (R223, R233). -/
inductive Status where
  | none | done | accepted | badFrame | starting | notSetUp | unknown | badArg | noCase | noModel
  | stale | state | inUse | locked | busy | quiesced | full | duplicate
  deriving DecidableEq, Repr

/-- An answer frame as it is prepared: its flags and check byte are formed when it is shifted out (R217). -/
structure Answer where
  status : Status
  body : List Byte
  deriving DecidableEq, Repr

/-- A SEL period (R217): the bytes DOUT carries and whether they are the pending answer; the read position, which is the
number of those bytes shifted out; whether the collided mark became yes in this period (R220); the frame in, absent once
its frame is complete or its first byte was the idle code; the DIN bits of the byte that is not whole yet; the level of CLK,
and the bit that DOUT carries since the last falling edge of CLK. -/
structure SelPeriod where
  dout : List Byte
  carriesAnswer : Bool
  readPosition : Nat
  collided : Bool
  frameIn : Option (List Byte)
  bits : List Bool
  clk : Bool
  doutBit : Bool
  deriving DecidableEq, Repr

/-- The Request Port (R216). The notice set is held with the rack. -/
structure Port where
  rackState : RackState
  period : Option SelPeriod
  answer : Option Answer
  collided : Bool
  attention : Bool
  tick : Option TickLength
  deriving DecidableEq, Repr

/-! ## The whole part -/

/-- The state of the part, with the queue of waiting commands and the counter that free values are applied to. -/
structure State where
  rack : Rack
  store : Store
  port : Port
  caseCounter : Half
  pending : List Instr
  freeCount : Nat
  deriving DecidableEq, Repr

/-- No command of this part stops it: a request is answered and an event is taken or changes nothing. -/
inductive Fault where
  deriving DecidableEq, Repr

/-- Refusals. -/
inductive Refusal where
  /-- Raised by `exec` for a command that has no meaning yet; no arm does. Safe. -/
  | notModelled (mnemonic : String)
  deriving DecidableEq, Repr

/-! ## Values after hard reset -/

/-- R152. -/
def Rail.reset : Rail := ⟨.off, .nominal, 0, 0, none⟩

/-- R173. -/
def Line.reset : Line := ⟨.idle, none, 0, false, .absent⟩

/-- R192. -/
def Sequencer.reset : Sequencer := ⟨.off, 1, 0, none, none, false, false⟩

/-- R202. -/
def Watch.reset : Watch := ⟨none, 1, none, none⟩

/-- R33, R118, R130, R150. -/
def Slot.reset : Slot := ⟨0, none, 0, Rail.reset, Line.reset, Sequencer.reset, Watch.reset, false, 0⟩

/-- R203, R204, R216. -/
def Rack.reset (wide : Bool) : Rack :=
  ⟨wide, none, Vector.replicate 16 Slot.reset, [], .active, ⟨.idle, false, 0, false, 0⟩, ⟨0, 0⟩⟩

/-- R216. -/
def Port.reset : Port := ⟨.starting, none, none, false, false, none⟩

/-- An erased model slot. DESIGN CHOICE (log entry 1): the store of a part that was never programmed. -/
def ModelSlot.erased : ModelSlot := ⟨.blank, .absent, false, none⟩

/-- R75, R89. -/
def Store.reset : Store := ⟨Vector.replicate 8 ModelSlot.erased, none, none⟩

/-- The part right after a first hard reset. DESIGN CHOICE: WIDTH high (log entry 2) and an erased store (log entry 1). -/
def State.reset : State := ⟨Rack.reset true, Store.reset, Port.reset, 1, [], 0⟩

end Sys2Proof.Machine
end

