-- ==== Sys2Proof/Machine/Ops.lean ====
section
/-! DEFINITION. The shared operations on slots and records: reading and changing a slot, counts, notices, stamps and
case states, the model a case names, stays and the heater, the rail orders and the abort of an exchange. -/

namespace Sys2Proof.Machine

/-! ## Counts -/

/-- A saturating count rises by one and stops at its upper limit (00_scope.md, Counts). -/
def bump (limit n : Nat) : Nat := min (n + 1) limit

/-! ## Sampled inputs -/

/-- A millisecond sample of a debounced input: a sample that agrees with the level ends the count, and the sample that makes
`limit` in a row disagree changes the level (R148, R203). The result is the level and the count. -/
def debounce (limit : Nat) (level : Bool) (count : Nat) (sample : Bool) : Bool × Nat :=
  if sample = level then (level, 0)
  else if count + 1 < limit then (level, count + 1)
  else (sample, 0)

/-! ## Slots -/

/-- Slots 1 to 16 in ascending order. -/
def allSlots : List SlotIx := [0, 1, 2, 3, 4, 5, 6, 7, 8, 9, 10, 11, 12, 13, 14, 15]

/-- The number of a slot. -/
def slotNumber (k : SlotIx) : Nat := k.val + 1

/-- A slot is in use with WIDTH high, or when it is one of slots 1 to 8 (R1). -/
def Rack.inUse (r : Rack) (k : SlotIx) : Bool := r.wide || k.val < 8

/-- The slot at an index. -/
def Rack.slot (r : Rack) (k : SlotIx) : Slot := r.slots[k]

def Rack.setSlot (r : Rack) (k : SlotIx) (sl : Slot) : Rack := { r with slots := r.slots.set k sl }

def Rack.modSlot (r : Rack) (k : SlotIx) (f : Slot → Slot) : Rack := r.setSlot k (f (r.slot k))

/-- Change the open case of a slot; an EMPTY slot stays as it is. -/
def Rack.modCase (r : Rack) (k : SlotIx) (f : CaseRecord → CaseRecord) : Rack :=
  r.modSlot k fun sl => { sl with record := sl.record.map f }

def Rack.modStay (r : Rack) (k : SlotIx) (f : Stay → Stay) : Rack :=
  r.modCase k fun c => { c with stay := f c.stay }

def Rack.modRail (r : Rack) (k : SlotIx) (f : Rail → Rail) : Rack :=
  r.modSlot k fun sl => { sl with rail := f sl.rail }

def Rack.modLine (r : Rack) (k : SlotIx) (f : Line → Line) : Rack :=
  r.modSlot k fun sl => { sl with line := f sl.line }

def Rack.modSeq (r : Rack) (k : SlotIx) (f : Sequencer → Sequencer) : Rack :=
  r.modSlot k fun sl => { sl with seq := f sl.seq }

def Rack.modWatch (r : Rack) (k : SlotIx) (f : Watch → Watch) : Rack :=
  r.modSlot k fun sl => { sl with watch := f sl.watch }

/-- The state of the slot's open case. -/
def Slot.caseState (sl : Slot) : Option CaseState := sl.record.map (·.state)

/-- The states of a run in progress (section 1.4). -/
def CaseState.inRun : CaseState → Bool
  | .waiting | .powering | .running | .paused | .resting => true
  | .ready | .faulted _ | .pulled | .done _ _ => false

/-- The slot's case is in a run. -/
def Slot.inRun (sl : Slot) : Bool :=
  match sl.record with
  | none => false
  | some c => c.state.inRun

/-- The rail is on in RISING, GOOD and SAG (R133). -/
def RailState.isOn : RailState → Bool
  | .rising | .good | .sag => true
  | .off | .tripped => false

/-! ## The model of a case (R71, R73) -/

/-- Read for a model slot that holds no record; no open case names one (R90). -/
def Header.blank : Header := ⟨[], .r9600, 0, 1, 1, 0, 1, 0, 1, 1, 1, 1, 1, 1, 1⟩

/-- Read for a stage that a model does not hold; no stay is at one. -/
def Stage.blank : Stage := ⟨1, .nominal, 0, 0, 0, 0, 0, 0⟩

/-- Read for a model slot that holds no record; no open case names one (R90). -/
def Model.blank : Model := ⟨Header.blank, [], [], Vector.replicate 4 []⟩

/-- The model in a model slot. -/
def Store.model (st : Store) (m : ModelIx) : Model := (st.slots[m]).model.getD Model.blank

/-- Stage `n` of a model, counted from 1 (R69). -/
def Model.stage (m : Model) (n : Nat) : Stage := (m.stages[n - 1]?).getD Stage.blank

/-- The steps of probe program `p` of a model, counted from 1; program 0 has none (R69, R70). -/
def Model.program (m : Model) (p : Nat) : List Step :=
  match p with
  | 1 => m.programs[0]
  | 2 => m.programs[1]
  | 3 => m.programs[2]
  | 4 => m.programs[3]
  | _ => []

/-- The greatest load units of any stage (R73). -/
def Model.largestNeed (m : Model) : Nat := (m.stages.map (·.units)).foldl max 0

/-- The model a case names. -/
def caseModel (st : Store) (c : CaseRecord) : Model := st.model c.model

/-- The stage of a case's present position. -/
def caseStage (st : Store) (c : CaseRecord) : Stage := (caseModel st c).stage c.stay.position.stage

/-- The model of the slot's case. -/
def Rack.model (st : Store) (r : Rack) (k : SlotIx) : Model :=
  match (r.slot k).record with
  | none => Model.blank
  | some c => caseModel st c

/-- The present stage of the slot's case. -/
def Rack.stage (st : Store) (r : Rack) (k : SlotIx) : Stage :=
  match (r.slot k).record with
  | none => Stage.blank
  | some c => caseStage st c

/-- The component-map lookup from entry `i` on (R71): the index and wait class of the entry that holds the address. -/
def lookupFrom (addr : Addr) : Nat → List Component → Option (Nat × Nat)
  | _, [] => none
  | i, x :: xs =>
    match x.range with
    | some (first, last) => if first ≤ addr && addr ≤ last then some (i, x.waitClass) else lookupFrom addr (i + 1) xs
    | none => lookupFrom addr (i + 1) xs

/-- The component-map lookup (R71); `none` is "unmapped". -/
def Model.lookup (m : Model) (addr : Addr) : Option (Nat × Nat) := lookupFrom addr 1 m.components

/-! ## Notices and stamps -/

/-- A slot enters the notice set (R224). -/
def Rack.noticeSlot (r : Rack) (k : SlotIx) : Rack :=
  { r with notices := { r.notices with slots := r.notices.slots ||| BitVec.twoPow 16 k.val } }

/-- The bit of a rack flag in the NOTICES body (R233). -/
def RackFlag.bits : RackFlag → BitVec 4
  | .quiesced => 1
  | .storeDone => 2
  | .storeFailed => 4
  | .restarted => 8

/-- A rack flag enters the notice set (R224). -/
def Rack.noticeFlag (r : Rack) (f : RackFlag) : Rack :=
  { r with notices := { r.notices with flags := r.notices.flags ||| f.bits } }

/-- The stamp of a slot's record advances by one, wrapping (R4). -/
def Rack.stamp (r : Rack) (k : SlotIx) : Rack := r.modSlot k fun sl => { sl with stamp := sl.stamp + 1 }

/-- A case enters a state: the state changes, the stamp advances by one (R4) and the slot enters the notice set (R6). -/
def Rack.enter (r : Rack) (k : SlotIx) (cs : CaseState) : Rack :=
  ((r.modCase k fun c => { c with state := cs }).stamp k).noticeSlot k

/-! ## Stays and the heater (R93, R105 to R108) -/

/-- A new stay begins at a position (R93). -/
def Stay.begin (position : Position) (stage : Stage) : Stay :=
  ⟨position, 0, false, false, true, true, stage.dutyA, stage.dutyB, .a, 0⟩

/-- The case of a slot begins a new stay at a position of its model (R93). -/
def Rack.beginStay (st : Store) (r : Rack) (k : SlotIx) (position : Position) : Rack :=
  r.modCase k fun c => { c with stay := Stay.begin position ((caseModel st c).stage position.stage) }

/-- The idle values a Stage Engine shows without a stay (R118). -/
def Stay.idle : Stay := ⟨⟨0, 0⟩, 0, false, false, true, true, 0, 0, .a, 0⟩

/-- The Stage Engine's fields, at their idle values on an EMPTY slot (R92, R118). -/
def Slot.stay (sl : Slot) : Stay :=
  match sl.record with
  | none => Stay.idle
  | some c => c.stay

/-- The holder the heater output drives, if any: the case is RUNNING and the rack ACTIVE (R107). It is also the heater
phase of an evidence item (R108). -/
def Rack.phase (r : Rack) (k : SlotIx) : Option Holder :=
  match (r.slot k).record with
  | none => none
  | some c => if c.state = .running ∧ r.quiesce = .active then some c.stay.driving else none

/-- The duty the heater output drives (R107). -/
def Rack.heaterDuty (r : Rack) (k : SlotIx) : Nat :=
  match r.phase k with
  | none => 0
  | some .a => (r.slot k).stay.holderA
  | some .b => (r.slot k).stay.holderB

/-! ## Boundaries and stop reasons (R175, R183) -/

/-- The sequencer is at a boundary: no exchange in flight and no run start (R175). -/
def Slot.atBoundary (sl : Slot) : Bool := sl.line.exchange.isNone && sl.seq.runStart.isNone

/-- The slot is granted to the bench (R204). -/
def Rack.isGranted (r : Rack) (k : SlotIx) : Bool :=
  match r.bench.state with
  | .granted j => j == k
  | .idle | .pending _ => false

/-- The slot's HOLD is pending (R204). -/
def Rack.isPending (r : Rack) (k : SlotIx) : Bool :=
  match r.bench.state with
  | .pending j => j == k
  | .idle | .granted _ => false

/-- The stop reasons of a sequencer (R183). -/
structure StopReasons where
  drain : Bool
  pause : Bool
  quiesce : Bool
  hold : Bool
  grant : Bool
  deriving DecidableEq, Repr

/-- Each stop reason stands exactly while its cause stands (R183), so the reasons are a view of their causes. -/
def Rack.stopReasons (r : Rack) (k : SlotIx) : StopReasons :=
  { drain := (r.slot k).stay.draining
    pause := (r.slot k).caseState == some .paused
    quiesce := r.quiesce != .active
    hold := r.isPending k
    grant := r.isGranted k }

/-- Idle, in the sense of the rack quiesce (R110). -/
def Rack.isIdle (r : Rack) (k : SlotIx) : Bool := r.isGranted k || (r.slot k).atBoundary

/-- The rack becomes QUIESCED in the action in which the last sequencer of the slots in use becomes idle (R111, R112). -/
def Rack.checkQuiesced (r : Rack) : Rack :=
  if r.quiesce = .quiescing ∧ allSlots.all (fun k => !r.inUse k || r.isIdle k) then
    ({ r with quiesce := .quiesced }).noticeFlag .quiesced
  else r

/-! ## Rail orders (R136, R137) -/

/-- The on order: the margin of the case's current stage, RISING, both counters 0 (R136). -/
def Rack.railOn (st : Store) (r : Rack) (k : SlotIx) : Rack :=
  match (r.slot k).record with
  | none => r
  | some c => r.modRail k fun l => { l with state := .rising, margin := (caseStage st c).margin, rise := 0, sag := 0 }

/-- The off order: RISING, GOOD and SAG become OFF and TRIPPED stays, the rise and sag counters are 0 (R137); the
pointer is no longer sure (R161). -/
def Rack.railOff (r : Rack) (k : SlotIx) : Rack :=
  (r.modRail k fun l => { l with state := if l.state.isOn then .off else l.state, rise := 0, sag := 0 }).modLine k
    fun l => { l with sure := false }

/-- A rail state of TRIPPED becomes OFF when its case leaves FAULTED (R137). -/
def Rack.untrip (r : Rack) (k : SlotIx) : Rack :=
  r.modRail k fun l => { l with state := if l.state = .tripped then .off else l.state }

/-! ## Abort (R168, R185) -/

/-- The controller's part of an abort: a controller with no exchange in flight is left as it is (R168). The ABORTED record
it hands changes nothing, by `Rack.judgeResult`. The last end that R168 records without naming a moment is that of the abort
itself (DESIGN CHOICE, log entry 34). -/
def Line.abort (l : Line) : Line :=
  match l.exchange with
  | none => l
  | some _ => { l with state := .idle, exchange := none, sure := false, lastEnd := .within }

/-- The abort of a pull, a stop, a trip, a hang, a boot failure or a restart: the exchange in flight is cut off and the
sequencer goes OFF, its run start absent, its tick wait no and its counter kept (R168, R176, R185). -/
def Rack.abortOff (r : Rack) (k : SlotIx) : Rack :=
  (r.modLine k Line.abort).modSeq k fun q =>
    { q with mode := .off, runStart := none, tickWait := false, waitTickSeen := false }

/-- The counter is set to step 1 in PROGRAM mode (R176). -/
def Sequencer.startProgram (q : Sequencer) : Sequencer :=
  { q with mode := .program, step := 1, index := 0, runStart := none, lastExchange := none, tickWait := false,
           waitTickSeen := false }

/-- Both counters are disarmed (R195, R197). -/
def Watch.disarm (w : Watch) : Watch := { w with beat := none, boot := none }

/-- The beat counter is armed at 0 with a window, or disarmed when the window is 0 (R197). -/
def Watch.armBeat (window : Nat) (w : Watch) : Watch :=
  if window = 0 then { w with beat := none } else { w with beat := some 0, window := window }

end Sys2Proof.Machine
end

