-- ==== Sys2Proof/Machine/Pool.lean ====
section
/-! DEFINITION. The Suspect Pool: rank lists (R38), what a FAIL and a PASS item do (R39 to R47), reclamation (R49 to R52)
and the verdict (R29). -/

namespace Sys2Proof.Machine

/-! ## Rank order (R38) -/

/-- State classes in rank order (R38). -/
def SuspectState.cls : SuspectState → Nat
  | .confirmed => 0
  | .opened => 1
  | .cleared => 2
  | .reworked => 3

/-- `x` ranks before `y`: state class, then more fails, then the smaller serial, then the smaller component (R38). -/
def Suspect.before (x y : Suspect) : Bool :=
  if x.state.cls ≠ y.state.cls then x.state.cls < y.state.cls
  else if x.fails ≠ y.fails then y.fails < x.fails
  else if x.serial ≠ y.serial then x.serial < y.serial
  else x.component < y.component

/-- The place a suspect's keys give it in a list in rank order (R38). -/
def rankInsert (x : Suspect) : List Suspect → List Suspect
  | [] => [x]
  | y :: ys => if x.before y then x :: y :: ys else y :: rankInsert x ys

/-- The list without the suspect of a component; the others keep their relative order. -/
def rankRemove (component : Nat) (l : List Suspect) : List Suspect := l.filter fun y => y.component != component

/-- The list with this suspect as the one of its component, at the place its keys give it (R36, R38). -/
def rankPlace (x : Suspect) (l : List Suspect) : List Suspect := rankInsert x (rankRemove x.component l)

/-- The list in rank order. -/
def rankSort (l : List Suspect) : List Suspect := l.foldr rankInsert []

/-- The case's suspect for a component (R36). -/
def suspectFor (component : Nat) (l : List Suspect) : Option Suspect := l.find? fun x => x.component == component

/-! ## The verdict (R29) -/

/-- FAIL when any suspect is CONFIRMED, else MARGINAL when any is OPEN, else PASS (R29). -/
def verdictOf (l : List Suspect) : Verdict :=
  if l.any fun x => x.state == .confirmed then .fail
  else if l.any fun x => x.state == .opened then .marginal
  else .pass

/-- While a case stays DONE its verdict is that of its present list (R29). -/
def CaseState.withVerdict (l : List Suspect) : CaseState → CaseState
  | .done cause _ => .done cause (verdictOf l)
  | .ready => .ready
  | .waiting => .waiting
  | .powering => .powering
  | .running => .running
  | .paused => .paused
  | .resting => .resting
  | .faulted cause => .faulted cause
  | .pulled => .pulled

/-- The case's list becomes `l`, and the verdict of a DONE case is computed again (R29, R47). -/
def CaseRecord.withList (l : List Suspect) (c : CaseRecord) : CaseRecord :=
  { c with suspects := l, state := c.state.withVerdict l }

/-! ## Counts of the pool (R34, R36) -/

/-- The number of suspects of a slot's case. -/
def Slot.suspectCount (sl : Slot) : Nat :=
  match sl.record with
  | none => 0
  | some c => c.suspects.length

/-- The used entries of the pool (R34). -/
def Rack.usedEntries (r : Rack) : Nat := (allSlots.map fun k => (r.slot k).suspectCount).sum

/-- The free entries of the pool (R34). -/
def Rack.freeEntries (r : Rack) : Nat := Config.poolSize - r.usedEntries

/-! ## What an item does to a suspect (R40 to R46) -/

/-- The bit of a symptom in the set (R233). -/
def Symptom.bit : Symptom → Nat
  | .miscompare => 0
  | .parity => 1
  | .noecho => 2
  | .silent => 3
  | .sag => 4
  | .trip => 5
  | .norise => 6
  | .hang => 7
  | .noboot => 8
  | .manual => 9

/-- The set that holds one symptom alone. -/
def Symptom.set (y : Symptom) : BitVec 10 := BitVec.twoPow 10 y.bit

/-- What a FAIL item says beside its component: symptom, heater phase, stage position (R39). -/
structure Fail where
  symptom : Symptom
  phase : Option Holder
  position : Option Position
  deriving DecidableEq, Repr

/-- Fails counted as hot: those of phase A (R40, R41). -/
def Fail.hot (f : Fail) : Nat := if f.phase = some .a then 1 else 0

/-- The position of a FAIL item is applied (R42). -/
def Suspect.seeAt (position : Option Position) (x : Suspect) : Suspect :=
  match position with
  | none => x
  | some p =>
    if x.lastSeen = some p then x
    else { x with positionsSeen := bump Config.max8 x.positionsSeen, lastSeen := some p,
                  firstSeen := if x.firstSeen.isNone then some p else x.firstSeen }

/-- The confirmation test, applied to an OPEN suspect (R43). -/
def Suspect.confirmTest (h : Header) (x : Suspect) : Suspect :=
  if x.state = .opened ∧ h.confirmThreshold ≤ x.fails ∧ h.confirmSpread ≤ x.positionsSeen then
    { x with state := .confirmed }
  else x

/-- The evidence of one FAIL item alone, in state OPEN: how a suspect begins and how a REWORKED one begins again
(R40, R44). -/
def Suspect.fresh (component serial : Nat) (recurred : Bool) (f : Fail) : Suspect :=
  { component := component, state := .opened, serial := serial, fails := 1, hotFails := f.hot, passes := 0, quiet := 0,
    positionsSeen := if f.position.isSome then 1 else 0, firstSeen := f.position, lastSeen := f.position,
    symptoms := f.symptom.set, recurred := recurred }

/-- A FAIL item is added to an OPEN, CONFIRMED or CLEARED suspect, before the confirmation test (R41). -/
def Suspect.addFail (f : Fail) (x : Suspect) : Suspect :=
  Suspect.seeAt f.position
    { x with fails := bump Config.max16 x.fails, hotFails := min (x.hotFails + f.hot) Config.max16, quiet := 0,
             symptoms := x.symptoms ||| f.symptom.set, state := if x.state = .cleared then .opened else x.state }

/-- A FAIL item against the case's suspect (R41, R43, R44). -/
def Suspect.takeFail (h : Header) (f : Fail) (x : Suspect) : Suspect :=
  Suspect.confirmTest h
    (if x.state = .reworked then Suspect.fresh x.component x.serial true f else x.addFail f)

/-- A PASS item against the case's suspect (R45). -/
def Suspect.takePass (h : Header) (x : Suspect) : Suspect :=
  let y := { x with passes := bump Config.max16 x.passes, quiet := bump Config.max16 x.quiet }
  if y.state = .opened ∧ h.clearCount ≠ 0 ∧ h.clearCount ≤ y.quiet then { y with state := .cleared } else y

/-! ## Reclamation (R49 to R51) -/

/-- Only a CLEARED or REWORKED suspect gives up its entry (R49). -/
def Suspect.reclaimable (x : Suspect) : Bool := x.state == .cleared || x.state == .reworked

/-- The list without its lowest-ranked CLEARED or REWORKED suspect, when it holds one (R50). -/
def giveUpLowest : List Suspect → Option (List Suspect)
  | [] => none
  | x :: xs =>
    match giveUpLowest xs with
    | some ys => some (x :: ys)
    | none => if x.reclaimable then some xs else none

/-- The suspects of a slot's case. -/
def Slot.suspects (sl : Slot) : List Suspect :=
  match sl.record with
  | none => []
  | some c => c.suspects

/-- The case other than `k`'s that the second step picks: of those that hold a CLEARED or REWORKED suspect the one with
the most suspects, in the lowest-numbered slot among equals (R51). -/
def Rack.donor (r : Rack) (k : SlotIx) : Option SlotIx :=
  allSlots.foldl (init := none) fun best j =>
    if j ≠ k ∧ (r.slot j).suspects.any Suspect.reclaimable then
      match best with
      | none => some j
      | some i => if (r.slot i).suspectCount < (r.slot j).suspectCount then some j else some i
    else best

/-- The case's list becomes `l` (R29, R38). -/
def Rack.setList (r : Rack) (k : SlotIx) (l : List Suspect) : Rack := r.modCase k (CaseRecord.withList l)

/-- An entry for a new suspect of slot `k`'s case: a free one, one given up by the case itself (R50), or one given up by
another case, whose stamp moves (R51); `none` when neither step finds one (R52). -/
def Rack.findEntry (r : Rack) (k : SlotIx) : Option Rack :=
  if 0 < r.freeEntries then some r
  else
    match giveUpLowest (r.slot k).suspects with
    | some l => some (r.setList k l)
    | none =>
      match r.donor k with
      | none => none
      | some j =>
        match giveUpLowest (r.slot j).suspects with
        | none => none
        | some l => some ((r.setList j l).stamp j)

/-! ## Items (R39) -/

/-- A suspect becoming CONFIRMED puts its slot into the notice set (R43, R47). -/
def Rack.noticeConfirmed (r : Rack) (k : SlotIx) (before : Option SuspectState) (after : SuspectState) : Rack :=
  if after = .confirmed ∧ before ≠ some .confirmed then r.noticeSlot k else r

/-- A new suspect takes the entry found for it (R37, R40). -/
def Rack.createSuspect (st : Store) (r : Rack) (k : SlotIx) (component : Nat) (f : Fail) : Rack :=
  match (r.slot k).record with
  | none => r
  | some c =>
    let x := (Suspect.fresh component c.nextSerial false f).confirmTest (caseModel st c).header
    ((r.setList k (rankPlace x c.suspects)).modCase k fun c => { c with nextSerial := bump Config.max16 c.nextSerial })
      |>.noticeConfirmed k none x.state

/-- A FAIL item for slot `k`'s case, and whether it moves the case's stamp (R39 to R44). `none` when its creation finds
no entry. The stamp of the case itself is left to the caller (R47, R59). -/
def Rack.takeFail (st : Store) (r : Rack) (k : SlotIx) (component : Nat) (f : Fail) : Option (Rack × Bool) :=
  match (r.slot k).record with
  | none => some (r, false)
  | some c =>
    if component = 0 ∨ (caseModel st c).components.length < component then some (r, false)
    else
      match suspectFor component c.suspects with
      | some x =>
        let y := x.takeFail (caseModel st c).header f
        some ((r.setList k (rankPlace y c.suspects)).noticeConfirmed k (some x.state) y.state, y.state != x.state)
      | none => (r.findEntry k).map fun r => (r.createSuspect st k component f, true)

/-- A FAIL item of a slot block that found no entry is unplaced (R52). -/
def Rack.unplaced (r : Rack) (k : SlotIx) : Rack :=
  match (r.slot k).record with
  | none => r
  | some c =>
    let r := r.modCase k fun c => { c with unplaced := bump Config.max8 c.unplaced, poolFull := true }
    if c.poolFull then r else r.noticeSlot k

/-- A FAIL item from a slot block (R39 to R44, R47, R52). -/
def Rack.failItem (st : Store) (r : Rack) (k : SlotIx) (component : Nat) (f : Fail) : Rack :=
  match r.takeFail st k component f with
  | none => r.unplaced k
  | some (r, moved) => if moved then r.stamp k else r

/-- A PASS item from a slot block (R45, R47). Its phase and position are not recorded. -/
def Rack.passItem (st : Store) (r : Rack) (k : SlotIx) (component : Nat) : Rack :=
  match (r.slot k).record with
  | none => r
  | some c =>
    match suspectFor component c.suspects with
    | none => r
    | some x =>
      let y := x.takePass (caseModel st c).header
      let r := r.setList k (rankPlace y c.suspects)
      if y.state = x.state then r else r.stamp k

/-- A FAIL that a slot block hands over now: it carries the heater phase and the stage position of this moment
(R39, R108, R143, R187). -/
def Rack.failNow (st : Store) (r : Rack) (k : SlotIx) (component : Nat) (symptom : Symptom) : Rack :=
  r.failItem st k component ⟨symptom, r.phase k, some (r.slot k).stay.position⟩

end Sys2Proof.Machine
end

