-- ==== Sys2Proof/Machine/Issue.lean ====
section
/-! DEFINITION. The Probe Sequencer and the Sense Line Controller between exchanges: steps, patterns, forms, the issue of
an exchange and the move of the program counter (R157, R160, R162, R177 to R182). -/

namespace Sys2Proof.Machine

/-! ## Steps (R70, R178) -/

/-- The kind that a step's code names; a stored model holds only the three codes (R81). -/
def stepKind? (code : Byte) : Option StepKind :=
  match code.toNat with
  | 0 => some .hail
  | 1 => some .peek
  | 2 => some .poke
  | _ => none

/-- The pattern that a step's code names; a stored model holds only the four codes (R81). -/
def pattern? (code : Byte) : Option Pattern :=
  match code.toNat with
  | 0 => some .fixed
  | 1 => some .addrLow
  | 2 => some .addrInvert
  | 3 => some .walkOne
  | _ => none

/-- The kind of a step of a stored model. -/
def Step.kindOf (p : Step) : StepKind := (stepKind? p.kind).getD .hail

/-- The step is marked bound-to-next: code 0, yes (R70, R233; log entry 19). -/
def Step.isBound (p : Step) : Bool := p.bound == 0

/-- Bits 7 to 0 of an address. -/
def lowByte (a : Addr) : Byte := a.setWidth 8

/-- The address of exchange `k` of a step (R177). -/
def Step.addr (p : Step) (k : Nat) : Addr := p.start + BitVec.ofNat 24 k

/-- The pattern byte of exchange `k` of a step, at its address (R178). -/
def Step.patternByte (p : Step) (k : Nat) : Byte :=
  match (pattern? p.pattern).getD .fixed with
  | .fixed => p.value
  | .addrLow => lowByte (p.addr k)
  | .addrInvert => ~~~ lowByte (p.addr k)
  | .walkOne => 1#8 <<< (k % 8)

/-! ## Targets and characters (R157) -/

/-- The target of an exchange; a HAIL has none (R153). -/
def Probe.target? : Probe → Option Addr
  | .hail => none
  | .peek _ _ t => some t
  | .poke _ _ t _ => some t

/-- The probe of a retry: an ON form goes out as the AT form at its target (R167). -/
def Probe.retry : Probe → Probe
  | .hail => .hail
  | .peek asked _ t => .peek asked .atForm t
  | .poke asked _ t d => .poke asked .atForm t d

/-- Bits 23 to 16, 15 to 8 and 7 to 0 of an address. -/
def addrBytes (a : Addr) : List Byte := [(a >>> 16).setWidth 8, (a >>> 8).setWidth 8, a.setWidth 8]

/-- The characters the part sends in an attempt, in order (R157). -/
def Probe.chars : Probe → List Byte
  | .hail => [0xA5]
  | .peek _ .atForm t => 0xB1 :: addrBytes t
  | .poke _ .atForm t d => 0xB2 :: (addrBytes t ++ [d])
  | .peek _ .onForm _ => [0xB3]
  | .poke _ .onForm _ d => [0xB4, d]

/-- The bytes the board returns after the last echo (R157). -/
def Probe.replies : Probe → Nat
  | .hail => 2
  | .peek _ _ _ => 1
  | .poke _ _ _ _ => 0

/-! ## Results (R164) -/

/-- The five results of an attempt (R164). -/
inductive ExchangeResult where
  | ok | noecho | parity | silent | aborted
  deriving DecidableEq, Repr

/-- The result record that the controller hands the sequencer at the end of an attempt (R164). It is handed and judged in
one action, so no state holds it. -/
structure ResultRecord where
  result : ExchangeResult
  kind : StepKind
  formAsked : Option Form
  formSent : Option Form
  target : Option Addr
  attempt : Nat
  final : Bool
  returned : Option Byte
  identity : Option Half
  place : Option Nat
  deriving DecidableEq, Repr

/-- The kind of an exchange (R153). -/
def Probe.kind : Probe → StepKind
  | .hail => .hail
  | .peek _ _ _ => .peek
  | .poke _ _ _ _ => .poke

/-- The form that the sequencer asked for; a HAIL has none (R153). -/
def Probe.asked? : Probe → Option Form
  | .hail => none
  | .peek asked _ _ => some asked
  | .poke asked _ _ _ => some asked

/-- The form being sent; a HAIL has none (R153). -/
def Probe.sent? : Probe → Option Form
  | .hail => none
  | .peek _ sent _ => some sent
  | .poke _ sent _ _ => some sent

/-- A retry follows a failed attempt while its number is below 1 + the model's retries (R166). -/
def Exchange.retryFollows (retries : Nat) (x : Exchange) : Bool := x.attempt < 1 + retries

/-- A result is final when the exchange ends with it: OK and ABORTED always, a failed attempt when no retry follows
(R164, R166). -/
def Exchange.isFinal (retries : Nat) (x : Exchange) : ExchangeResult → Bool
  | .ok | .aborted => true
  | .noecho | .parity | .silent => !x.retryFollows retries

/-- The place of fault: for NOECHO the sent character, 1 to 5; for PARITY and SILENT of a HAIL the returned byte, 1 or 2
(R156, R159, R164). -/
def Exchange.faultPlace (x : Exchange) : ExchangeResult → Option Nat
  | .noecho => some x.sent
  | .parity | .silent => if x.probe.kind = .hail then some (x.returned.length + 1) else none
  | .ok | .aborted => none

/-- The identity in the two returned bytes of a HAIL, high byte first (R159). -/
def identity? : List Byte → Option Half
  | [h, l] => some (h ++ l)
  | _ => none

/-- The record of an attempt of `x` that ends with a result (R164). -/
def Exchange.record (retries : Nat) (x : Exchange) (result : ExchangeResult) : ResultRecord where
  result := result
  kind := x.probe.kind
  formAsked := x.probe.asked?
  formSent := x.probe.sent?
  target := x.probe.target?
  attempt := x.attempt
  final := x.isFinal retries result
  returned := if result = .ok ∧ x.probe.kind = .peek then x.returned.head? else none
  identity := if result = .ok ∧ x.probe.kind = .hail then identity? x.returned else none
  place := x.faultPlace result

/-! ## Forms (R160, R177) -/

/-- The form the sequencer asks for: ON when exchange `k - 1` of the same step was the last exchange (R177). -/
def Sequencer.formAsked (q : Sequencer) : Form :=
  if 1 ≤ q.index ∧ q.lastExchange = some (q.step, q.index - 1) then .onForm else .atForm

/-- The target fixed at the issue: the sequencer's address for an AT form, the pointer copy plus one for ON (R160). -/
def Line.target (l : Line) (asked : Form) (addr : Addr) : Addr :=
  match asked with
  | .atForm => addr
  | .onForm => l.pointer + 1

/-- The form sent: ON goes out as AT while the pointer is not sure (R160). -/
def Line.formSent (l : Line) (asked : Form) : Form :=
  match asked with
  | .atForm => .atForm
  | .onForm => if l.sure then .onForm else .atForm

/-- The wait class of an address, 0 when unmapped (R71, R162). -/
def Model.waitClass (m : Model) (addr : Addr) : Nat :=
  match m.lookup addr with
  | none => 0
  | some (_, w) => w

/-! ## The issue (R157, R182) -/

/-- The controller begins an exchange: attempt 1, in SEND. The first character is sent at once unless less than one
character time has passed since the last end (R157). -/
def Line.begin (l : Line) (probe : Probe) (waitClass : Nat) : Line :=
  { l with state := .send
           exchange := some ⟨probe, waitClass, 1, if l.lastEnd = .within then 0 else 1, []⟩ }

/-- The controller takes a HAIL (R157, R162). -/
def Line.issueHail (l : Line) : Line := l.begin .hail 0

/-- The controller takes a PEEK or POKE: it fixes the target, the form and the wait class, and the pointer copy becomes
the target (R157, R160, R162). -/
def Line.issueAccess (l : Line) (m : Model) (asked : Form) (addr : Addr) (data : Option Byte) : Line :=
  let target := l.target asked addr
  let sent := l.formSent asked
  let probe : Probe := match data with
    | none => .peek asked sent target
    | some d => .poke asked sent target d
  { l.begin probe (m.waitClass target) with pointer := target }

/-- The steps of the stage's program (R70, R176). -/
def caseSteps (st : Store) (c : CaseRecord) : List Step := (caseModel st c).program (caseStage st c).program

/-- The step the program counter stands at. -/
def currentStep (st : Store) (c : CaseRecord) (q : Sequencer) : Option Step := (caseSteps st c)[q.step - 1]?

/-- The sequencer issues the exchange at its program counter (R177, R181, R182). -/
def issueProgram (st : Store) (c : CaseRecord) (sl : Slot) : Slot :=
  match currentStep st c sl.seq with
  | none => sl
  | some p =>
    let q := sl.seq
    let q' := if p.isBound ∧ q.index = 0 ∧ q.runStart = none then { q with runStart := some q.step } else q
    let line := match p.kindOf with
      | .hail => sl.line.issueHail
      | .peek => sl.line.issueAccess (caseModel st c) q.formAsked (p.addr q.index) none
      | .poke => sl.line.issueAccess (caseModel st c) q.formAsked (p.addr q.index) (some (p.patternByte q.index))
    { sl with seq := q', line := line }

/-- Whether the sequencer may issue its next exchange (R182, R183): in a run, whatever the reasons other than GRANT; at a
boundary in PROGRAM mode with no reason and a program; in HAIL mode with no reason but DRAIN and no tick wait. -/
def mayIssue (st : Store) (r : Rack) (k : SlotIx) (c : CaseRecord) : Bool :=
  let sl := r.slot k
  let why := r.stopReasons k
  sl.line.exchange.isNone && sl.line.state == .idle &&
    match sl.seq.mode with
    | .off => false
    | .hail => !why.pause && !why.quiesce && !why.hold && !why.grant && !sl.seq.tickWait
    | .program =>
      if sl.seq.runStart.isSome then !why.grant
      else !why.drain && !why.pause && !why.quiesce && !why.hold && !why.grant && (caseStage st c).program != 0

/-- The issue of the next exchange, when it is permitted (R182). -/
def Rack.issue (st : Store) (r : Rack) (k : SlotIx) : Rack :=
  match (r.slot k).record with
  | none => r
  | some c =>
    if mayIssue st r k c then
      match (r.slot k).seq.mode with
      | .off => r
      | .hail => r.modLine k Line.issueHail
      | .program => r.modSlot k (issueProgram st c)
    else r

/-! ## The counter (R180, R181) -/

/-- The program counter after a final result other than ABORTED, and whether it completes a pass (R180). A step of a run
that is not marked bound closes the run at its last exchange (R181). -/
def Sequencer.move (steps : List Step) (q : Sequencer) : Sequencer × Bool :=
  match steps[q.step - 1]? with
  | none => (q, false)
  | some p =>
    let q := { q with lastExchange := some (q.step, q.index) }
    if q.index + 1 < p.count then ({ q with index := q.index + 1 }, false)
    else
      let q := { q with runStart := if p.isBound then q.runStart else none }
      if q.step < steps.length then ({ q with step := q.step + 1, index := 0 }, false)
      else ({ q with step := 1, index := 0 }, true)

/-- The counter moves, and the program's last exchange counts a pass (R180). -/
def Rack.moveCounter (st : Store) (r : Rack) (k : SlotIx) : Rack :=
  match (r.slot k).record with
  | none => r
  | some c =>
    let (q, pass) := (r.slot k).seq.move (caseSteps st c)
    let r := r.modSeq k fun _ => q
    if pass then r.modCase k fun c => { c with passes := bump Config.max32 c.passes } else r

end Sys2Proof.Machine
end

