-- ==== Sys2Proof/Machine/Arbiter.lean ====
section
/-! DEFINITION. The Budget Arbiter (R119 to R131): units, the Budget Queue, requests, releases and grant passes, with the
Case Table's side of a grant (R16, R22). -/

namespace Sys2Proof.Machine

/-- The sum of the units held by all slots (R120). -/
def Rack.heldTotal (r : Rack) : Nat := (allSlots.map fun k => (r.slot k).units).sum

/-- The budget in force; 0 stands for an absent one, under which nothing runs. -/
def Rack.budgetUnits (r : Rack) : Nat := r.budget.getD 0

/-- The budget less the held total (R120). -/
def Rack.freeUnits (r : Rack) : Nat := r.budgetUnits - r.heldTotal

/-- The slot has an entry in the Budget Queue (R121). -/
def Rack.queued (r : Rack) (k : SlotIx) : Bool := r.queue.any fun e => e.slot == k

/-- An entry joins at the end of its priority class, every RUSH entry ahead of every NORMAL one (R121, R122). -/
def joinQueue (e : QueueEntry) (q : List QueueEntry) : List QueueEntry :=
  match e.priority with
  | .normal => q ++ [e]
  | .rush => q.filter (·.priority == .rush) ++ [e] ++ q.filter (·.priority == .normal)

/-- A slot's units become `n`. -/
def Rack.setUnits (r : Rack) (k : SlotIx) (n : Nat) : Rack := r.modSlot k fun sl => { sl with units := n }

/-- A slot's entry is removed, the others keeping their order (R127). -/
def Rack.removeEntry (r : Rack) (k : SlotIx) : Rack := { r with queue := r.queue.filter fun e => e.slot != k }

/-- A slot gives its units back and loses its entry; the grant pass is made by the caller (R126, R127). -/
def Rack.giveBack (r : Rack) (k : SlotIx) : Rack := (r.setUnits k 0).removeEntry k

/-- A case enters POWERING and its rail is ordered on (R7, R136). -/
def Rack.enterPowering (st : Store) (r : Rack) (k : SlotIx) : Rack := (r.enter k .powering).railOn st k

/-- The Case Table takes a grant. In WAITING with the rail off the case enters POWERING, with the rail on RUNNING at
step 1 (R16); a case queued through a rest changes no state (R22), and a case whose own request is being answered is
taken by the request (R122). -/
def Rack.takeGrant (st : Store) (r : Rack) (k : SlotIx) : Rack :=
  if (r.slot k).caseState = some .waiting then
    if (r.slot k).rail.state.isOn then
      ((r.enter k .running).modSeq k Sequencer.startProgram).issue st k
    else r.enterPowering st k
  else r

/-- A grant pass of at most `n` grants (R123, R124): while the rack is ACTIVE and the head's need fits in the free units,
the head leaves the queue and its slot holds the need. -/
def Rack.grantPassUpTo (st : Store) : Nat → Rack → Rack
  | 0, r => r
  | n + 1, r =>
    match r.queue with
    | [] => r
    | e :: rest =>
      if r.quiesce = .active ∧ e.need ≤ r.freeUnits then
        Rack.grantPassUpTo st n ((({ r with queue := rest }).setUnits e.slot e.need).takeGrant st e.slot)
      else r

/-- A grant pass walks the head of the queue; it ends at the latest when every entry has been granted (R123). -/
def Rack.grantPass (st : Store) (r : Rack) : Rack := r.grantPassUpTo st r.queue.length

/-- The answer of R122 to a request for units, before the grant pass that follows a queued one: need 0 is granted, a need
that fits with the queue empty and the rack ACTIVE is granted, any other joins the queue. -/
def Rack.askUnits (r : Rack) (k : SlotIx) (need : Nat) : Rack :=
  if need = 0 then r.setUnits k 0
  else if r.queue = [] ∧ need ≤ r.freeUnits ∧ r.quiesce = .active then r.setUnits k need
  else
    match (r.slot k).record with
    | none => r
    | some c => { r with queue := joinQueue ⟨k, c.number, need, c.priority, false⟩ r.queue }

/-- A request of CASE START or CASE RESUME (R122): the grant pass follows when the entry joined the queue. The slot is
queued afterwards exactly when the request was not granted. -/
def Rack.requestUnits (st : Store) (r : Rack) (k : SlotIx) (need : Nat) : Rack :=
  let r := r.askUnits k need
  if r.queued k then r.grantPass st else r

/-- The budget step of a stage advance (R125): release, request, one grant pass. -/
def Rack.budgetStep (st : Store) (r : Rack) (k : SlotIx) (need : Nat) : Rack :=
  ((r.setUnits k 0).askUnits k need).grantPass st

/-- A priority change moves the case's entry to the end of its new class (R128). -/
def Rack.moveEntry (r : Rack) (k : SlotIx) (p : Priority) : Rack :=
  match r.queue.find? fun e => e.slot == k with
  | none => r
  | some e => { r with queue := joinQueue { e with priority := p } (r.queue.filter fun e => e.slot != k) }

end Sys2Proof.Machine
end

