-- ==== Sys2Proof/Machine/Advance.lean ====
section
/-! DEFINITION. What follows in a slot when something has happened: the end of a run (R7, R15 to R24), the stage advance
(R98 to R103), the bench grant at a boundary (R206, R209) and the next issue (R182, R183). -/

namespace Sys2Proof.Machine

/-! ## The end of a run -/

/-- What every exit from a run orders of the slot blocks: the exchange aborted, the sequencer OFF, the rail off, the rest
stopped, the watch disarmed (R7, R137, R147, R168, R176, R197). -/
def Rack.dropRun (r : Rack) (k : SlotIx) : Rack :=
  (((r.abortOff k).railOff k).modRail k fun l => { l with rest := none }).modWatch k Watch.disarm

/-- A case leaves its run for FAULTED, PULLED or DONE: the slot blocks are stopped, units and entry given back, the state
entered, and a grant pass follows (R7, R126, R127). -/
def Rack.endRun (st : Store) (r : Rack) (k : SlotIx) (cs : CaseState) : Rack :=
  (((r.dropRun k).giveBack k).enter k cs).grantPass st

/-- The DONE state with the verdict of the case's suspects as they stand (R29). -/
def Rack.doneState (r : Rack) (k : SlotIx) (cause : EndCause) : CaseState :=
  .done cause (verdictOf (r.slot k).suspects)

/-! ## The stage advance (R98 to R103) -/

/-- The position after `p` in profile order, none after the last position (R94). -/
def Model.nextPosition (m : Model) (p : Position) : Option Position :=
  if p.stage < m.stages.length then some ⟨p.cycle, p.stage + 1⟩
  else if p.cycle < m.header.cycles then some ⟨p.cycle + 1, 1⟩
  else none

/-- The stage-clean evidence of the stay being left (R100). -/
def Rack.stageClean (st : Store) (r : Rack) (k : SlotIx) (c : CaseRecord) : Rack :=
  let h := (caseModel st c).header
  let r := if c.stay.railClean then r.passItem st k h.rail else r
  if c.stay.hangClean then r.passItem st k h.hang else r

/-- The profile ends: the case enters DONE (COMPLETE), its position and elapsed kept (R101, R18). -/
def Rack.endProfile (st : Store) (r : Rack) (k : SlotIx) : Rack :=
  let r := r.modStay k fun y => { y with draining := false, heldAdvance := false }
  r.endRun st k (r.doneState k .complete)

/-- A new margin is taken by the rail: when it differs from the margin in force the rail is RISING at the new one
(R145). -/
def Rail.newMargin (margin : Margin) (l : Rail) : Rail :=
  if l.margin = margin then l else { l with state := .rising, margin := margin, rise := 0, sag := 0 }

/-- The new stay of an advance with its margin and window (R102). -/
def Rack.nextStay (st : Store) (r : Rack) (k : SlotIx) (m : Model) (p : Position) : Rack :=
  ((r.beginStay st k p).modRail k (Rail.newMargin (m.stage p.stage).margin)).modWatch k
    (Watch.armBeat (m.stage p.stage).window)

/-- The outcome of the budget step: granted, the case stays RUNNING and its program starts at step 1; not granted, it
enters WAITING with the rail on (R18, R103, R176). -/
def Rack.afterBudget (r : Rack) (k : SlotIx) : Rack :=
  if r.queued k then (r.enter k .waiting).modSeq k fun q => { q with mode := .off }
  else r.modSeq k Sequencer.startProgram

/-- The stage advance of a slot, one action (R100 to R103). -/
def Rack.stageAdvance (st : Store) (r : Rack) (k : SlotIx) : Rack :=
  match (r.slot k).record with
  | none => r
  | some c =>
    let m := caseModel st c
    let r := r.stageClean st k c
    match m.nextPosition c.stay.position with
    | none => r.endProfile st k
    | some p => ((r.nextStay st k m p).budgetStep st k (m.stage p.stage).units).afterBudget k

/-- At a drain boundary the advance is taken when the case is RUNNING, the rack ACTIVE and the slot not granted to the
bench, and otherwise held (R96, R98, R183). In HAIL mode DRAIN holds nothing. DESIGN CHOICE (log entry 31): an abort that
leaves the sequencer of a draining case OFF and at a boundary does not set the held advance mark; the draining mark alone
carries the advance to the next PROGRAM mode. -/
def Rack.takeOrHoldAdvance (st : Store) (r : Rack) (k : SlotIx) : Rack :=
  let sl := r.slot k
  if sl.stay.draining ∧ sl.seq.mode = .program ∧ sl.atBoundary then
    if sl.caseState = some .running ∧ r.quiesce = .active ∧ ¬ r.isGranted k then r.stageAdvance st k
    else r.modStay k fun y => { y with heldAdvance := true }
  else r

/-! ## The bench at a boundary (R206, R209) -/

/-- The grant of a slot to the bench (R209, R169). -/
def Rack.benchGrant (r : Rack) (k : SlotIx) : Rack :=
  (({ r with bench := { r.bench with state := .granted k } }).modLine k fun l =>
    { l with state := .passed, sure := false }).noticeSlot k

/-- A pending HOLD is granted when the sequencer of its slot is at a boundary (R206). -/
def Rack.grantPending (r : Rack) : Rack :=
  match r.bench.state with
  | .pending j => if (r.slot j).atBoundary then r.benchGrant j else r
  | .idle | .granted _ => r

/-- What the sequencer of a slot does next: a drain boundary is reported to the Stage Engine, then a HOLD boundary to the
Bench Port, then the next exchange is issued when it may be, and the quiesce state is told (R182, R183, R213). -/
def Rack.proceed (st : Store) (r : Rack) (k : SlotIx) : Rack :=
  (((r.takeOrHoldAdvance st k).grantPending).issue st k).checkQuiesced

end Sys2Proof.Machine
end

