-- ==== Sys2Proof/Machine/Flags.lean ====
section
/-! DEFINITION. The outputs and flags that are views of the state: RDY, ATN, the flags byte of an answer, BGRANT, RCn and
the frame DOUT carries (R134, R204, R217, R219 to R221, R225). -/

namespace Sys2Proof.Machine

/-- The notice set holds any slot or rack flag (R221, R225). -/
def NoticeSet.holdsAny (n : NoticeSet) : Bool := n.slots != 0 || n.flags != 0

/-- A slot stands in the notice set (R224). -/
def NoticeSet.hasSlot (n : NoticeSet) (k : SlotIx) : Bool := n.slots.getLsbD k.val

/-- RDY is high while an answer is pending (R216, R220). -/
def State.rdy (s : State) : Bool := s.port.answer.isSome

/-- ATN: the notice set holds something, attention is enabled and the rack is SET (R225). -/
def State.atn (s : State) : Bool := s.rack.notices.holdsAny && s.port.attention && s.port.rackState == .set

/-- The flags byte of a frame: 01h COLLIDED, 02h NOTICE-PENDING (R221, R233). -/
def State.flagsByte (s : State) : Byte :=
  (if s.port.collided then 1 else 0) ||| (if s.rack.notices.holdsAny then 2 else 0)

/-- BGRANT is high in GRANTED (R204). -/
def Rack.bgrant (r : Rack) : Bool :=
  match r.bench.state with
  | .granted _ => true
  | .idle | .pending _ => false

/-- The orders of RCn: OFF, or on at a margin (R134). -/
def Rack.rcn (r : Rack) (k : SlotIx) : Option Margin :=
  if (r.slot k).rail.state.isOn then some (r.slot k).rail.margin else none

/-- The status codes of R233. -/
def Status.code : Status → Byte
  | .none => 0x00
  | .done => 0x01
  | .accepted => 0x02
  | .badFrame => 0x10
  | .starting => 0x11
  | .notSetUp => 0x12
  | .unknown => 0x13
  | .badArg => 0x14
  | .noCase => 0x15
  | .noModel => 0x16
  | .stale => 0x17
  | .state => 0x18
  | .inUse => 0x19
  | .locked => 0x1A
  | .busy => 0x1B
  | .quiesced => 0x1C
  | .full => 0x1D
  | .duplicate => 0x1E

end Sys2Proof.Machine
end

