-- ==== Sys2Proof/Machine/Operands.lean ====
section
/-! DEFINITION. The arguments of requests: their ranges and their choice codes (R1, R10, R67 to R69, R229, R233). -/

namespace Sys2Proof.Machine

/-- A slot argument: 1 to 16, and in use (R1). -/
def Rack.slotArg (r : Rack) (b : Byte) : Option SlotIx :=
  if h : 1 ≤ b.toNat ∧ b.toNat ≤ 16 then
    let k : SlotIx := ⟨b.toNat - 1, by omega⟩
    if r.inUse k then some k else none
  else none

/-- A model number or model slot argument: 1 to 8 (R10, R81, R85). -/
def modelArg (b : Byte) : Option ModelIx :=
  if h : 1 ≤ b.toNat ∧ b.toNat ≤ 8 then some ⟨b.toNat - 1, by omega⟩ else none

/-- The number of a model slot. -/
def modelNumber (m : ModelIx) : Nat := m.val + 1

/-- A character of a tag, name or designator: 20h to 7Eh (R2, R67, R68). -/
def printable (b : Byte) : Bool := 0x20 ≤ b.toNat && b.toNat ≤ 0x7E

/-- A string of 1 to `most` characters, each 20h to 7Eh. -/
def stringArg (most : Nat) (s : List Byte) : Bool := 1 ≤ s.length && s.length ≤ most && s.all printable

/-- A serial tag (R10). -/
def tagArg (s : List Byte) : Bool := stringArg 16 s

/-- A number within its range. -/
def within (low high n : Nat) : Bool := low ≤ n && n ≤ high

/-- NORMAL, RUSH (R2). -/
def priorityArg (b : Byte) : Option Priority :=
  match b.toNat with
  | 0 => some .normal
  | 1 => some .rush
  | _ => none

/-- 9600, 19200, 57600, 115200 bit/s (R67, R233). -/
def lineRateArg (b : Byte) : Option LineRate :=
  match b.toNat with
  | 0 => some .r9600
  | 1 => some .r19200
  | 2 => some .r57600
  | 3 => some .r115200
  | _ => none

/-- MEMORY, STORAGE, PROCESSOR, IO, POWER, CLOCK, PATH (R68). -/
def classArg (b : Byte) : Option ComponentClass :=
  match b.toNat with
  | 0 => some .memory
  | 1 => some .storage
  | 2 => some .processor
  | 3 => some .io
  | 4 => some .power
  | 5 => some .clock
  | 6 => some .path
  | _ => none

/-- NOMINAL, LOW, HIGH (R69). -/
def marginArg (b : Byte) : Option Margin :=
  match b.toNat with
  | 0 => some .nominal
  | 1 => some .low
  | 2 => some .high
  | _ => none

/-- 10 ms, 100 ms, 1 s (R229, R233). -/
def tickArg (b : Byte) : Option TickLength :=
  match b.toNat with
  | 0 => some .ms10
  | 1 => some .ms100
  | 2 => some .s1
  | _ => none

/-- Attention: 0 enabled, 1 masked (R233). -/
def attentionArg (b : Byte) : Option Bool :=
  match b.toNat with
  | 0 => some true
  | 1 => some false
  | _ => none

end Sys2Proof.Machine
end

