-- ==== Sys2Proof/Machine/Answers.lean ====
section
/-! DEFINITION. The answer frames and bodies of R221 and R233. -/

namespace Sys2Proof

/-! ## Choice codes of the command words (R233) -/

def Priority.code : Priority → Nat
  | .normal => 0
  | .rush => 1

def ComponentClass.code : ComponentClass → Nat
  | .memory => 0
  | .storage => 1
  | .processor => 2
  | .io => 3
  | .power => 4
  | .clock => 5
  | .path => 6

def LineRate.code : LineRate → Nat
  | .r9600 => 0
  | .r19200 => 1
  | .r57600 => 2
  | .r115200 => 3

def Margin.code : Margin → Nat
  | .nominal => 0
  | .low => 1
  | .high => 2

def TickLength.code : TickLength → Nat
  | .ms10 => 0
  | .ms100 => 1
  | .s1 => 2

def Holder.code : Holder → Nat
  | .a => 0
  | .b => 1

end Sys2Proof

namespace Sys2Proof.Machine

/-! ## Encodings (R233) -/

/-- A one-byte number. -/
def byte (n : Nat) : Byte := BitVec.ofNat 8 n

/-- A number of `n` bytes, high byte first. -/
def bytes : Nat → Nat → List Byte
  | 0, _ => []
  | n + 1, v => byte (v / 256 ^ n) :: bytes n v

/-- A 16-bit word, high byte first. -/
def halfBytes (h : Half) : List Byte := bytes 2 h.toNat

/-- A string in a fixed width, padded with 00h after its last character. -/
def padded (width : Nat) (s : List Byte) : List Byte := (s ++ List.replicate width 0).take width

/-- An optional field: its presence mark and its bytes, which read 0 when it is absent. -/
def marked (width : Nat) : Option (List Byte) → List Byte
  | none => List.replicate (width + 1) 0
  | some b => 1 :: padded width b

/-- A yes-or-no field, a choice of "yes, no" in that order (R233; log entry 19). -/
def yesNo (b : Bool) : Byte := if b then 0 else 1

/-- A list of entries, preceded by a one-byte count. -/
def counted (entries : List (List Byte)) : List Byte := byte entries.length :: entries.flatten

/-- States of a case, by place in R2. -/
def CaseState.code : CaseState → Nat
  | .ready => 1
  | .waiting => 2
  | .powering => 3
  | .running => 4
  | .paused => 5
  | .resting => 6
  | .faulted _ => 7
  | .pulled => 8
  | .done _ _ => 9

/-- The state of a slot's record; EMPTY is the first of R2. -/
def Slot.stateCode (sl : Slot) : Nat :=
  match sl.record with
  | none => 0
  | some c => c.state.code

def FaultCause.code : FaultCause → Nat
  | .rail => 0
  | .hang => 1
  | .swapped => 2
  | .restart => 3

def EndCause.code : EndCause → Nat
  | .complete => 0
  | .stopped => 1

def Verdict.code : Verdict → Nat
  | .pass => 0
  | .marginal => 1
  | .fail => 2

def RailState.code : RailState → Nat
  | .off => 0
  | .rising => 1
  | .good => 2
  | .sag => 3
  | .tripped => 4

def SuspectState.code : SuspectState → Nat
  | .opened => 0
  | .confirmed => 1
  | .cleared => 2
  | .reworked => 3

def ModelSlotState.code : ModelSlotState → Nat
  | .blank => 0
  | .programming => 1
  | .valid => 2
  | .locked => 3
  | .damaged => 4

def QuiesceState.code : QuiesceState → Nat
  | .active => 0
  | .quiescing => 1
  | .quiesced => 2

def RackState.code : RackState → Nat
  | .starting => 0
  | .unset => 1
  | .set => 2

/-! ## Frames (R221) -/

/-- An answer frame: status, flags, two-byte length, body and CRC-8 (R221). -/
def frameBytes (status : Status) (flags : Byte) (body : List Byte) : List Byte :=
  let head := status.code :: flags :: (bytes 2 body.length ++ body)
  head ++ [crc8 head]

/-- A refusal with an empty body (R223). -/
def Answer.refusal (status : Status) : Answer := ⟨status, []⟩

/-- BAD-ARG with a detail code and a locator (R223). -/
def Answer.badArg (detail locator : Nat) : Answer := ⟨.badArg, byte detail :: bytes 2 locator⟩

/-- STALE with the slot and the case's present stamp (R5, R223). -/
def Answer.stale (r : Rack) (k : SlotIx) : Answer := ⟨.stale, byte (slotNumber k) :: halfBytes (r.slot k).stamp⟩

/-! ## Bodies -/

/-- The case number of a slot's record, 0 when absent. -/
def Slot.numberBytes (sl : Slot) : List Byte :=
  match sl.record with
  | none => [0, 0]
  | some c => halfBytes c.number

/-- The seven bytes that begin the answer to a taken case request, suspect request or REWORK: slot, presence mark, case
number, case state and stamp (R233). -/
def casePrefix (r : Rack) (k : SlotIx) : List Byte :=
  let sl := r.slot k
  byte (slotNumber k) :: (if sl.record.isSome then 1 else 0) :: (sl.numberBytes ++ byte sl.stateCode ::
    halfBytes sl.stamp)

/-- A taken case request answers DONE with the case as it stands (R5, R233). -/
def Answer.case (r : Rack) (k : SlotIx) : Answer := ⟨.done, casePrefix r k⟩

/-- One bit of a marks byte. -/
def mark (b : Bool) (bit : Byte) : Byte := if b then bit else 0

/-- The fault or end cause of a state (R2). -/
def CaseState.cause? : CaseState → Option Nat
  | .faulted f => some f.code
  | .done e _ => some e.code
  | .ready | .waiting | .powering | .running | .paused | .resting | .pulled => none

/-- The verdict of a state (R2). -/
def CaseState.verdict? : CaseState → Option Verdict
  | .done _ v => some v
  | .ready | .waiting | .powering | .running | .paused | .resting | .faulted _ | .pulled => none

/-- The 52-byte body of CASE LOOK (R30, R233). -/
def lookBody (r : Rack) (k : SlotIx) : List Byte :=
  let sl := r.slot k
  let fixedMarks := mark sl.latchClosed 1 ||| mark (r.isGranted k) 2
  match sl.record with
  | none =>
    [byte (slotNumber k), 0, fixedMarks, 0] ++ halfBytes sl.stamp ++ List.replicate 32 0
      ++ [byte sl.units, byte sl.rail.state.code] ++ List.replicate 10 0 ++ [byte (r.heaterDuty k), 0]
  | some c =>
    [byte (slotNumber k), byte c.state.code, fixedMarks ||| mark c.stay.draining 4 ||| mark c.poolFull 8,
      1 ||| mark c.state.cause?.isSome 2 ||| mark c.boardId.isSome 4 ||| mark c.state.verdict?.isSome 8]
    ++ halfBytes sl.stamp ++ halfBytes c.number
    ++ [byte (c.state.cause?.getD 0), byte (modelNumber c.model), byte c.priority.code]
    ++ padded 16 c.tag ++ halfBytes (c.boardId.getD 0)
    ++ [byte c.stay.position.cycle, byte c.stay.position.stage]
    ++ bytes 3 c.stay.elapsed ++ bytes 4 c.stress
    ++ [byte sl.units, byte sl.rail.state.code] ++ bytes 2 c.sagCount
    ++ [byte c.tripCount, byte c.strikes] ++ bytes 4 c.passes
    ++ [byte c.suspects.length, byte c.unplaced, byte (r.heaterDuty k),
        byte ((c.state.verdict?.map Verdict.code).getD 0)]

/-- A stage position, 0 when absent. -/
def positionBytes : Option Position → List Byte
  | none => [0, 0]
  | some p => [byte p.cycle, byte p.stage]

/-- A 30-byte entry of SUSPECT LIST (R63, R233). -/
def suspectBytes (m : Model) (rank : Nat) (x : Suspect) : List Byte :=
  let entry := m.components[x.component - 1]?
  [byte rank, byte x.component] ++ padded 8 ((entry.map (·.designator)).getD [])
  ++ [byte ((entry.map (·.cls.code)).getD 0), byte x.state.code,
      mark x.recurred 1 ||| mark x.firstSeen.isSome 2 ||| mark x.lastSeen.isSome 4]
  ++ bytes 2 x.serial ++ bytes 2 x.fails ++ bytes 2 x.hotFails ++ bytes 2 x.passes ++ bytes 2 x.quiet
  ++ [byte x.positionsSeen] ++ positionBytes x.firstSeen ++ positionBytes x.lastSeen ++ bytes 2 x.symptoms.toNat

/-- The entries at ranks `rank`, `rank + 1`, … -/
def suspectEntries (m : Model) (rank : Nat) : List Suspect → List (List Byte)
  | [] => []
  | x :: xs => suspectBytes m rank x :: suspectEntries m (rank + 1) xs

/-- The body of SUSPECT LIST: a 10-byte head and up to ten entries (R63, R233). -/
def listBody (st : Store) (r : Rack) (k : SlotIx) (c : CaseRecord) (firstRank : Nat) : List Byte :=
  let shown := (c.suspects.drop (firstRank - 1)).take 10
  byte (slotNumber k) :: (halfBytes c.number ++ halfBytes (r.slot k).stamp
    ++ [byte c.suspects.length, byte c.unplaced, yesNo c.poolFull, byte r.freeEntries, byte shown.length]
    ++ (suspectEntries (caseModel st c) firstRank shown).flatten)

/-- The rank of a component's suspect, counted from 1; 0 when it has none. -/
def rankOf (component : Nat) (l : List Suspect) : Nat :=
  match l.findIdx? fun x => x.component == component with
  | none => 0
  | some i => i + 1

/-- What a taken SUSPECT NOTE answers after the prefix: the suspect's state, rank and counts (R59; log entry 20). -/
def noteBody (r : Rack) (k : SlotIx) (component : Nat) : List Byte :=
  match suspectFor component (r.slot k).suspects with
  | none => []
  | some x =>
    [byte x.state.code, byte (rankOf component (r.slot k).suspects)] ++ bytes 2 x.fails ++ bytes 2 x.hotFails
      ++ bytes 2 x.passes ++ bytes 2 x.quiet ++ [byte x.positionsSeen]

/-- An entry of SUSPECT SWEEP (R64). -/
def sweepBytes (k : SlotIx) (c : CaseRecord) (x : Suspect) : List Byte :=
  [byte (slotNumber k)] ++ halfBytes c.number ++ [byte c.state.code, byte x.state.code] ++ bytes 2 x.fails
    ++ bytes 2 x.hotFails

/-- The staging condition and counts (R75). -/
def stagingBody : Option Model → List Byte
  | none => [0, 0, 0, 0, 0, 0, 0]
  | some m => [1, byte m.components.length, byte m.stages.length] ++ m.programs.toList.map fun p => byte p.length

/-- The header part of MODEL READ (R88): state, the fields of R67, the derived values of R73, the cases naming it. -/
def headerBody (state : ModelSlotState) (m : Model) (openCases : Nat) : List Byte :=
  let h := m.header
  [byte state.code] ++ padded 12 h.name
  ++ [byte h.lineRate.code, byte h.retries, byte h.confirmThreshold, byte h.confirmSpread]
  ++ bytes 2 h.clearCount ++ bytes 2 h.bootAllowance
  ++ [byte h.strikeLimit, byte h.restTime, byte h.riseAllowance, byte h.sagAllowance, byte h.cycles, byte h.path,
      byte h.rail, byte h.hang, byte m.components.length, byte m.stages.length]
  ++ (m.programs.toList.map fun p => byte p.length) ++ [byte m.largestNeed, byte openCases]

/-- The component part of MODEL READ (R68, R88). That the range and the wait class have a presence mark each, before the
field, is the model's reading of R233 (log entry 20). -/
def componentBody (x : Component) : List Byte :=
  padded 8 x.designator ++ [byte x.cls.code]
  ++ marked 6 (x.range.map fun (first, last) => addrBytes first ++ addrBytes last)
  ++ marked 1 (x.range.map fun _ => [byte x.waitClass])

/-- The stage part of MODEL READ (R69, R88). -/
def stageBody (x : Stage) : List Byte :=
  bytes 3 x.duration ++ [byte x.margin.code, byte x.dutyA, byte x.dutyB] ++ bytes 2 x.halfPeriod
  ++ [byte x.units, byte x.program] ++ bytes 2 x.window

/-- The step part of MODEL READ (R70, R88). -/
def stepBody (x : Step) : List Byte :=
  [x.kind] ++ addrBytes x.start ++ bytes 2 x.count ++ [x.pattern, x.value, x.mask, x.bound]

/-- An entry of the queue in BUDGET LOOK (R131). -/
def queueBytes (e : QueueEntry) : List Byte :=
  [byte (slotNumber e.slot)] ++ halfBytes e.number ++ [byte e.need, byte e.priority.code, yesNo e.throughRest]

/-- The body of BUDGET LOOK (R131). -/
def budgetBody (heldTotal freeUnits : Nat) (r : Rack) : List Byte :=
  [byte (r.budget.getD 0), byte heldTotal, byte freeUnits, byte r.quiesce.code]
  ++ counted ((allSlots.filter r.inUse).map fun k => [byte (r.slot k).units])
  ++ counted (r.queue.map queueBytes)

/-- The body of RACK STATUS (R231). The model slot states are absent during STARTING (R89). -/
def statusBody (s : State) : List Byte :=
  [byte s.port.rackState.code, byte s.rack.quiesce.code]
  ++ marked 1 (s.port.tick.map fun t => [byte t.code]) ++ marked 1 (s.rack.budget.map fun n => [byte n])
  ++ [byte (Rack.heldTotal s.rack), byte s.rack.queue.length]
  ++ (s.store.slots.toList.map fun m =>
        marked 1 (if s.port.rackState = .starting then none else some [byte m.state.code])).flatten
  ++ [if s.rack.wide then 0 else 1] ++ halfBytes s.caseCounter

/-- The body of NOTICES: the slot set, then the rack flags (R226, R233). -/
def noticesBody (n : NoticeSet) : List Byte := bytes 2 n.slots.toNat ++ [byte n.flags.toNat]

end Sys2Proof.Machine
end

