-- ==== Sys2Proof/Machine/SlotEvents.lean ====
section
/-! DEFINITION. What the slot blocks report, as operations on the rack: entries to RUNNING, trips, hangs, HAIL outcomes,
results of the sense line, and the expiries of a rack tick. -/

namespace Sys2Proof.Machine

/-! ## Faults of a run -/

/-- A case enters FAULTED; the boundary its abort leaves is then reported (R20, R21, R206, R112). -/
def Rack.faultCase (st : Store) (r : Rack) (k : SlotIx) (cause : FaultCause) : Rack :=
  (r.endRun st k (.faulted cause)).proceed st k

/-- A FAIL of the Rail Monitor against the rail component; the stay is no longer rail-clean (R99, R143). -/
def Rack.railFail (st : Store) (r : Rack) (k : SlotIx) (symptom : Symptom) : Rack :=
  match (r.slot k).record with
  | none => r
  | some c => (r.failNow st k (caseModel st c).header.rail symptom).modStay k fun y => { y with railClean := false }

/-- The states in which the Case Table takes a rail trip; the rail of a trip was on (R20, R32). -/
def Slot.takesTrip (sl : Slot) : Bool :=
  match sl.caseState with
  | some .powering | some .running | some .paused | some .waiting => true
  | some .ready | some .resting | some (.faulted _) | some .pulled | some (.done _ _) | none => false

/-- A trip: the rail is cut and TRIPPED, counted, its item handed, and the report taken: FAULTED (RAIL) (R142, R20). -/
def Rack.trip (st : Store) (r : Rack) (k : SlotIx) (symptom : Symptom) : Rack :=
  let r := (r.modRail k fun l => { l with state := .tripped, rise := 0, sag := 0 }).modLine k fun l =>
    { l with sure := false }
  let r := r.modCase k fun c => { c with tripCount := bump Config.max8 c.tripCount }
  let r := r.railFail st k symptom
  if (r.slot k).takesTrip then r.faultCase st k .rail else r

/-- A FAIL of the Heartbeat Watch against the hang component; the stay is no longer hang-clean (R99, R196, R199). -/
def Rack.hangFail (st : Store) (r : Rack) (k : SlotIx) (symptom : Symptom) : Rack :=
  match (r.slot k).record with
  | none => r
  | some c => (r.failNow st k (caseModel st c).header.hang symptom).modStay k fun y => { y with hangClean := false }

/-- An entry becomes queued through the rest when its case enters RESTING (R22, R121). -/
def Rack.restEntry (r : Rack) (k : SlotIx) : Rack :=
  { r with queue := r.queue.map fun e => if e.slot = k then { e with throughRest := true } else e }

/-- A case enters RESTING: exchange aborted, rail off, the rest counted from 0, watch disarmed, units or entry kept
(R21, R22, R147). -/
def Rack.enterRest (r : Rack) (k : SlotIx) : Rack :=
  ((((r.abortOff k).railOff k).modRail k fun l => { l with rest := some 0 }).modWatch k Watch.disarm).restEntry k
    |>.enter k .resting

/-- The states in which a hang, a boot failure and a trip are taken (R20, R21, R32). -/
def Slot.takesHang (sl : Slot) : Bool :=
  match sl.caseState with
  | some .powering | some .running | some .paused => true
  | some .waiting => sl.rail.state.isOn
  | some .ready | some .resting | some (.faulted _) | some .pulled | some (.done _ _) | none => false

/-- A hang or boot failure report: within the strike limit the case is rested, beyond it FAULTED (HANG) (R21). -/
def Rack.hangReport (st : Store) (r : Rack) (k : SlotIx) : Rack :=
  match (r.slot k).record with
  | none => r
  | some c =>
    if (r.slot k).takesHang then
      if c.strikes + 1 ≤ (caseModel st c).header.strikeLimit then
        ((r.modCase k fun c => { c with strikes := c.strikes + 1 }).enterRest k).proceed st k
      else (r.modCase k fun c => { c with strikes := bump 15 c.strikes }).faultCase st k .hang
    else r

/-! ## HAIL outcomes (R17, R22, R190) -/

/-- The case enters RUNNING from POWERING: its program starts at step 1 and its beat counter is armed (R17, R176,
R197). -/
def Rack.enterRunning (st : Store) (r : Rack) (k : SlotIx) (c : CaseRecord) : Rack :=
  ((r.enter k .running).modSeq k Sequencer.startProgram).modWatch k fun w =>
    { Watch.armBeat (caseStage st c).window w with boot := none }

/-- A case queued through a rest enters WAITING with the rail on at its HAIL (R22, R197). -/
def Rack.enterWaitingOn (st : Store) (r : Rack) (k : SlotIx) (c : CaseRecord) : Rack :=
  ((r.enter k .waiting).modSeq k fun q =>
    { q with mode := .off, tickWait := false, waitTickSeen := false }).modWatch k fun w =>
      { Watch.armBeat (caseStage st c).window w with boot := none }

/-- The Case Table takes the identity of a successful HAIL in POWERING (R17, R22); in any other state it is not taken. -/
def Rack.takeIdentity (st : Store) (r : Rack) (k : SlotIx) (id : Half) : Rack :=
  match (r.slot k).record with
  | none => r
  | some c =>
    if c.state = .powering then
      if c.boardId = none ∨ c.boardId = some id then
        let r := r.modCase k fun c => { c with boardId := some id }
        if r.queued k then r.enterWaitingOn st k c else r.enterRunning st k c
      else r.endRun st k (.faulted .swapped)
    else r

/-! ## Results of the sense line (R164, R166, R186) -/

/-- The component that takes the evidence of an address: the one covering it, or the path component (R71, R186). -/
def Model.covering (m : Model) (addr : Addr) : Nat :=
  match m.lookup addr with
  | none => m.header.path
  | some (i, _) => i

/-- The component that takes the evidence of a result: the path component for a NOECHO and for every result of a HAIL, else
the one covering the target (R186). -/
def Model.attributed (m : Model) (res : ResultRecord) : Nat :=
  match res.result, res.target with
  | .noecho, _ => m.header.path
  | _, none => m.header.path
  | _, some t => m.covering t

/-- The item of an OK PEEK: none with mask 00h, else a PASS when the masked bytes agree and a MISCOMPARE when they differ
(R179, R186). -/
def Rack.judgePeek (st : Store) (r : Rack) (k : SlotIx) (c : CaseRecord) (component : Nat) (byte : Byte) : Rack :=
  match currentStep st c (r.slot k).seq with
  | none => r
  | some p =>
    if p.mask = 0 then r
    else if byte &&& p.mask = p.patternByte (r.slot k).seq.index &&& p.mask then r.passItem st k component
    else r.failNow st k component .miscompare

/-- The item of an OK result: a PASS for a HAIL, the comparison for a PEEK, none for a POKE (R186). -/
def Rack.judgeOk (st : Store) (r : Rack) (k : SlotIx) (c : CaseRecord) (res : ResultRecord) : Rack :=
  match res.kind, res.returned with
  | .hail, _ => r.passItem st k ((caseModel st c).attributed res)
  | .peek, some byte => r.judgePeek st k c ((caseModel st c).attributed res) byte
  | .peek, none => r
  | .poke, _ => r

/-- The sequencer turns a result into evidence; an ABORTED one gives none (R185, R186, R187). -/
def Rack.judgeResult (st : Store) (r : Rack) (k : SlotIx) (c : CaseRecord) (res : ResultRecord) : Rack :=
  match res.result with
  | .ok => r.judgeOk st k c res
  | .noecho => r.failNow st k ((caseModel st c).attributed res) .noecho
  | .parity => r.failNow st k ((caseModel st c).attributed res) .parity
  | .silent => r.failNow st k ((caseModel st c).attributed res) .silent
  | .aborted => r

/-- The result record of an attempt of `x` on a slot that ends now (R164). -/
def Rack.resultOf (st : Store) (r : Rack) (k : SlotIx) (x : Exchange) (result : ExchangeResult) : ResultRecord :=
  x.record (r.model st k).header.retries result

/-- The record of an attempt is handed to the sequencer of its slot, which judges it in the same action (R164, R187). -/
def Rack.handResult (st : Store) (r : Rack) (k : SlotIx) (res : ResultRecord) : Rack :=
  match (r.slot k).record with
  | none => r
  | some c => r.judgeResult st k c res

/-- A failed attempt drives BREAK, and the pointer is no longer sure (R161, R166). -/
def Line.fail (l : Line) : Line := { l with state := .breaking, sure := false }

/-- A failed attempt of the exchange in flight: its record is handed before the BREAK that follows (R166, R187). -/
def Rack.failAttempt (st : Store) (r : Rack) (k : SlotIx) (x : Exchange) (result : ExchangeResult) : Rack :=
  (r.handResult st k (r.resultOf st k x result)).modLine k Line.fail

/-- The exchange ends: it is cleared, the last end is recorded and the line is IDLE (R157, R164, R166). -/
def Line.finish (l : Line) : Line := { l with state := .idle, exchange := none, lastEnd := .within }

/-- An OK PEEK or POKE makes the pointer sure; a HAIL leaves it (R161). -/
def Line.sureAfterOk (kind : StepKind) (l : Line) : Line :=
  match kind with
  | .hail => l
  | .peek => { l with sure := true }
  | .poke => { l with sure := true }

/-- What the identity of an OK HAIL does in HAIL mode (R17, R190). -/
def Rack.offerIdentity (st : Store) (r : Rack) (k : SlotIx) (id : Option Half) : Rack :=
  match id with
  | none => r
  | some id => r.takeIdentity st k id

/-- The exchange ends OK: its record is handed, the controller is back in IDLE, and then the identity of the HAIL loop or
the move of the program counter, and what follows (R157, R164, R180, R190). -/
def Rack.exchangeOk (st : Store) (r : Rack) (k : SlotIx) (x : Exchange) : Rack :=
  let res := r.resultOf st k x .ok
  let r := (r.handResult st k res).modLine k fun l => (l.sureAfterOk res.kind).finish
  let r := if (r.slot k).seq.mode = .hail then r.offerIdentity st k res.identity else r.moveCounter st k
  r.proceed st k

/-- The exchange ends with the failed result of its last allowed attempt (R166, R180, R189). -/
def Rack.exchangeFailed (st : Store) (r : Rack) (k : SlotIx) : Rack :=
  let r := r.modLine k Line.finish
  let r :=
    if (r.slot k).seq.mode = .hail then r.modSeq k fun q => { q with tickWait := true, waitTickSeen := false }
    else r.moveCounter st k
  r.proceed st k

/-! ## The rail (R138 to R140) -/

/-- The rail enters GOOD. The first GOOD of a POWERING starts the HAIL loop and arms the boot counter (R138, R176, R189,
R195). -/
def Rack.railGood (st : Store) (r : Rack) (k : SlotIx) : Rack :=
  let r := r.modRail k fun l => { l with state := .good, rise := 0, sag := 0 }
  if (r.slot k).caseState = some .powering ∧ (r.slot k).seq.mode = .off then
    ((r.modSeq k fun q => { q with mode := .hail }).modWatch k fun w => { w with boot := some 0 }).proceed st k
  else r

/-- The rail enters SAG: counted, its counter from 0, its item handed (R139). -/
def Rack.railSag (st : Store) (r : Rack) (k : SlotIx) : Rack :=
  let r := r.modRail k fun l => { l with state := .sag, sag := 0 }
  (r.modCase k fun c => { c with sagCount := bump Config.max16 c.sagCount }).railFail st k .sag

/-- The setpoint reading of a margin in microvolts (R134). -/
def setpoint : Margin → Nat
  | .nominal => 1000000
  | .low => 950000
  | .high => 1050000

/-- The level in tenths of a percent, rounded down, a reading above 1.2 V counting as 1.2 V (R134). -/
def railLevel (margin : Margin) (microvolts : Nat) : Nat := min microvolts 1200000 * 1000 / setpoint margin

/-! ## The expiries of a rack tick -/

/-- The stage timer has reached the duration and has not been matched (R96). A DONE case keeps its elapsed (R101). -/
def Rack.matchDue (st : Store) (r : Rack) (k : SlotIx) : Bool :=
  match (r.slot k).record with
  | none => false
  | some c =>
    !c.stay.draining && (caseStage st c).duration ≤ c.stay.elapsed &&
      match c.state with
      | .done _ _ => false
      | .ready | .waiting | .powering | .running | .paused | .resting | .faulted _ | .pulled => true

/-- The alternation counter has reached the half-period (R106). -/
def Rack.switchDue (st : Store) (r : Rack) (k : SlotIx) : Bool :=
  match (r.slot k).record with
  | none => false
  | some c => (caseStage st c).halfPeriod != 0 && (caseStage st c).halfPeriod ≤ c.stay.alternation

/-- The rise counter has reached the rise allowance (R138). -/
def Rack.riseDue (st : Store) (r : Rack) (k : SlotIx) : Bool :=
  (r.slot k).rail.state == .rising && (r.model st k).header.riseAllowance ≤ (r.slot k).rail.rise

/-- The sag counter has reached the sag allowance (R140). -/
def Rack.sagDue (st : Store) (r : Rack) (k : SlotIx) : Bool :=
  (r.slot k).rail.state == .sag && (r.model st k).header.sagAllowance ≤ (r.slot k).rail.sag

/-- The rest counter has reached the rest time (R147). -/
def Rack.restDue (st : Store) (r : Rack) (k : SlotIx) : Bool :=
  match (r.slot k).rail.rest with
  | none => false
  | some n => (r.model st k).header.restTime ≤ n && (r.slot k).caseState == some .resting

/-- The boot counter has reached the boot allowance (R196). -/
def Rack.bootDue (st : Store) (r : Rack) (k : SlotIx) : Bool :=
  match (r.slot k).watch.boot with
  | none => false
  | some n => (r.model st k).header.bootAllowance ≤ n

/-- The beat counter has reached its window (R199). -/
def Rack.hangDue (r : Rack) (k : SlotIx) : Bool :=
  match (r.slot k).watch.beat with
  | none => false
  | some n => (r.slot k).watch.window ≤ n

/-- The tick that ends the tick wait has come (R189). -/
def Rack.waitDue (r : Rack) (k : SlotIx) : Bool := (r.slot k).seq.tickWait && (r.slot k).seq.waitTickSeen

/-- The match: draining is yes, and the advance is taken at once at a boundary (R96). When the same tick was also due to
bring the beat counter to its window, the match is here the first of the two, so the tick raises the counter of the new
window to 1 (R201). With no hang due no rule says whether the tick of an advance also counts into the counter that the
advance sets to 0 (R102, R104, R197): it stays at 0 here (DESIGN CHOICE, log entry 26). -/
def Rack.fireMatch (st : Store) (r : Rack) (k : SlotIx) : Rack :=
  let late := r.hangDue k
  let before := (r.slot k).stay.position
  let r := (r.modStay k fun y => { y with draining := true }).proceed st k
  if late ∧ (r.slot k).stay.position ≠ before then
    r.modWatch k fun w => { w with beat := w.beat.map fun _ => 1 }
  else r

/-- The driving holder changes and the alternation counter returns to 0 (R106). -/
def Rack.fireSwitch (r : Rack) (k : SlotIx) : Rack :=
  r.modStay k fun y => { y with driving := if y.driving = .a then .b else .a, alternation := 0 }

/-- The rest ends: its counter stops and the case enters POWERING with its rail on (R147, R23). -/
def Rack.fireRestEnd (st : Store) (r : Rack) (k : SlotIx) : Rack :=
  (r.modRail k fun l => { l with rest := none }).enterPowering st k

/-- A boot failure: the boot counter is disarmed, NOBOOT handed and the failure reported (R196). R196 and R65 also let the item
be taken after the report, with a REWORK between them; here nothing comes between (DESIGN CHOICE, log entry 8). -/
def Rack.fireBoot (st : Store) (r : Rack) (k : SlotIx) : Rack :=
  ((r.modWatch k fun w => { w with boot := none }).hangFail st k .noboot).hangReport st k

/-- A hang: the beat counter is disarmed, HANG handed and the hang reported (R199). R199 and R65 also let the item be taken
after the report, with a REWORK between them; here nothing comes between (DESIGN CHOICE, log entry 8). -/
def Rack.fireHang (st : Store) (r : Rack) (k : SlotIx) : Rack :=
  ((r.modWatch k fun w => { w with beat := none }).hangFail st k .hang).hangReport st k

/-- The tick wait ends and the next HAIL is issued when it may be (R189). -/
def Rack.fireWait (st : Store) (r : Rack) (k : SlotIx) : Rack :=
  (r.modSeq k fun q => { q with tickWait := false, waitTickSeen := false }).proceed st k

/-- The expiries that a rack tick can make due in a slot. -/
inductive Expiry where
  | stageMatch | heaterSwitch | rise | sag | rest | boot | hang | tickWait
  deriving DecidableEq, Repr

/-- The expiries in the order in which those whose rows were not sent are taken (log entry 4). -/
def allExpiries : List Expiry := [.stageMatch, .heaterSwitch, .rise, .sag, .rest, .boot, .hang, .tickWait]

/-- An expiry is due in a slot. -/
def Rack.due (st : Store) (r : Rack) (k : SlotIx) : Expiry → Bool
  | .stageMatch => r.matchDue st k
  | .heaterSwitch => r.switchDue st k
  | .rise => r.riseDue st k
  | .sag => r.sagDue st k
  | .rest => r.restDue st k
  | .boot => r.bootDue st k
  | .hang => r.hangDue k
  | .tickWait => r.waitDue k

/-- What an expiry does. -/
def Rack.expire (st : Store) (r : Rack) (k : SlotIx) : Expiry → Rack
  | .stageMatch => r.fireMatch st k
  | .heaterSwitch => r.fireSwitch k
  | .rise => r.trip st k .norise
  | .sag => r.trip st k .trip
  | .rest => r.fireRestEnd st k
  | .boot => r.fireBoot st k
  | .hang => r.fireHang st k
  | .tickWait => r.fireWait st k

/-- The action of an expiry row: what it does when it is due, and nothing otherwise. -/
def Rack.takeExpiry (st : Store) (k : SlotIx) (e : Expiry) (r : Rack) : Rack :=
  if r.due st k e then r.expire st k e else r

/-- The expiries due in the rack, slot by slot. -/
def Rack.dueList (st : Store) (r : Rack) : List (SlotIx × Expiry) :=
  allSlots.flatMap fun k => (allExpiries.filter (r.due st k)).map fun e => (k, e)

/-- An expiry belongs to the action of the tick that brought its counter there, so those still due are taken before any
other command (log entry 3). -/
def Rack.settle (st : Store) (r : Rack) : Rack :=
  (r.dueList st).foldl (fun r ke => r.takeExpiry st ke.1 ke.2) r

end Sys2Proof.Machine
end

