-- ==== Sys2Proof/Machine/Port.lean ====
section
/-! DEFINITION. The Request Port's part in every request: the frame, a pending answer, the port's own checks and the
answer (R217 to R223). -/

namespace Sys2Proof.Machine

/-- The expiries still due are taken first (log entry 3). -/
def State.settled (s : State) : State := { s with rack := s.rack.settle s.store }

/-- The answer of a request, with the state its owner leaves. -/
abbrev Reply := State × Answer

/-- A refusal changes nothing (R223). -/
def refuse (s : State) (status : Status) : Reply := (s, .refusal status)

/-- BAD-ARG with no detail code (R223). -/
def badArg (s : State) : Reply := (s, .badArg 0 0)

/-- A refusal with STALE (R5). -/
def stale (s : State) (k : SlotIx) : Reply := (s, .stale s.rack k)

/-- DONE with a body. -/
def done (s : State) (body : List Byte) : Reply := (s, ⟨.done, body⟩)

/-- DONE for a case request, with the case as it stands after the request (R5). -/
def doneCase (s : State) (k : SlotIx) : Reply := (s, .case s.rack k)

/-- The rack states in which the port lets a request through (R223, R228). -/
inductive Gate where
  | always | unsetOrSet | setOnly
  deriving DecidableEq, Repr

/-- The port's checks 2 and 3 (R223). -/
def Gate.refusal (g : Gate) (rackState : RackState) : Option Status :=
  match g, rackState with
  | .always, _ => none
  | _, .starting => some .starting
  | .unsetOrSet, .unset => none
  | .setOnly, .unset => some .notSetUp
  | _, .set => none

/-- The collided mark becomes yes in the present period; a mark that is yes already stays so (R220, R222). -/
def Port.collide (p : Port) : Port :=
  { p with collided := true, period := p.period.map fun d => { d with collided := d.collided || !p.collided } }

/-- The frame in is absent: the rest of the period's DIN bytes are ignored (R217). -/
def Port.complete (p : Port) : Port := { p with period := p.period.map fun d => { d with frameIn := none } }

/-- A request frame is being assembled in the present SEL period, so one can complete (R217). -/
def Port.assembling (p : Port) : Bool :=
  match p.period with
  | none => false
  | some d => d.frameIn.isSome

/-- The state with this SEL period under way. -/
def State.withPeriod (s : State) (d : SelPeriod) : State := { s with port := { s.port with period := some d } }

/-- A frame completes. Outside a SEL period and after the period's frame no frame does (R217). With an answer pending
the frame is discarded and collided (R222). Otherwise `act` gives the answer that becomes pending (R219). -/
def State.onFrame (s : State) (act : State → Reply) : State :=
  if s.port.assembling then
    let s := { s with port := s.port.complete }
    if s.port.answer.isSome then { s with port := s.port.collide }
    else
      let reply := act s
      { reply.1 with port := { reply.1.port with answer := some reply.2 } }
  else s

/-- A request: the expiries due are taken, the frame completes, the port makes its own checks (R223) and the owner, given
the arguments, takes or refuses it. -/
def State.request {α : Type} (s : State) (gate : Gate) (args : Body α) (owner : α → State → Reply) : State :=
  s.settled.onFrame fun s =>
    match gate.refusal s.port.rackState with
    | some status => refuse s status
    | none =>
      match args with
      | none => badArg s
      | some a => owner a s

/-- The outcome of every command: this part never stops. -/
abbrev Result := Host.Outcome State Fault Refusal

/-- An event of the rack: the expiries due are taken, then the event. -/
def State.onRack (s : State) (event : Store → Rack → Rack) : State :=
  let s := s.settled
  { s with rack := event s.store s.rack }

end Sys2Proof.Machine
end

