-- ==== Sys2Proof/Machine/CaseRequests.lean ====
section
/-! DEFINITION. The case requests: CASE OPEN, START, PAUSE, RESUME, STOP, CLOSE, LOOK, FIND and AMEND (R3, R10 to R15, R27 to
R31). -/

namespace Sys2Proof.Machine

/-- The state with another rack. -/
def State.withRack (s : State) (r : Rack) : State := { s with rack := r }

/-! ## CASE OPEN -/

/-- A case number is that of an open case (R3). -/
def Rack.holdsNumber (r : Rack) (n : Half) : Bool := allSlots.any fun k => (r.slot k).record.any fun c => c.number == n

/-- The step of R3 from a value on, at most `fuel` times; 17 steps always suffice. -/
def Rack.numberFrom (r : Rack) : Nat → Half → Half
  | 0, n => n
  | fuel + 1, n => if n = 0 ∨ r.holdsNumber n then r.numberFrom fuel (n + 1) else n

/-- The case number that a CASE OPEN takes (R3). -/
def Rack.nextNumber (r : Rack) (counter : Half) : Half := r.numberFrom 17 counter

/-- An open case in a slot other than `but` holds a tag (R10, R28). -/
def Rack.holdsTag (r : Rack) (but : Option SlotIx) (tag : List Byte) : Bool :=
  allSlots.any fun k => some k != but && (r.slot k).record.any fun c => c.tag == tag

/-- A STORE CLEAR is in progress (R84). -/
def Store.clearing (st : Store) : Bool :=
  match st.write with
  | some (.clear _ _) => true
  | some (.programming _) | some (.lockMark _) | none => false

/-- A model slot holds no model (R90). -/
def Store.noModel (st : Store) (m : ModelIx) : Bool :=
  (st.slots[m]).state == .blank || (st.slots[m]).state == .damaged

/-- The record of a case that CASE OPEN begins (R9, R10, R37, R93, R144, R192). -/
def CaseRecord.opened (st : Store) (number : Half) (m : ModelIx) (tag : List Byte) (p : Priority) : CaseRecord :=
  { number := number, state := .ready, model := m, tag := tag, boardId := none, priority := p,
    stay := Stay.begin ⟨1, 1⟩ ((st.model m).stage 1), stress := 0, sagCount := 0, tripCount := 0, strikes := 0,
    passes := 0, suspects := [], nextSerial := 1, unplaced := 0, poolFull := false }

/-- CASE OPEN puts a record into a slot: the pointer copy is 000000h and not sure (R160, R161), the program counter at
step 1 (R192), the stamp advances and the slot enters the notice set (R10). -/
def Rack.openCase (r : Rack) (k : SlotIx) (c : CaseRecord) : Rack :=
  (r.modSlot k fun sl =>
    { sl with record := some c
              line := { sl.line with pointer := 0, sure := false }
              seq := { sl.seq with step := 1, index := 0, runStart := none, lastExchange := none } }).enter k .ready

/-- CASE OPEN (R10). -/
def caseOpen (a : CaseOpenArgs) (s : State) : Reply :=
  match s.rack.slotArg a.slot, modelArg a.model, priorityArg a.priority with
  | some k, some m, some p =>
    if !tagArg a.tag then badArg s
    else if s.store.noModel m && !s.store.clearing then refuse s .noModel
    else if (s.rack.slot k).record.isSome then refuse s .state
    else if !(s.rack.slot k).latchClosed then refuse s .state
    else if (s.store.slots[m]).state == .programming || s.store.clearing then refuse s .busy
    else if s.rack.holdsTag none a.tag then refuse s .duplicate
    else
      let n := s.rack.nextNumber s.caseCounter
      doneCase { s with caseCounter := n + 1, rack := s.rack.openCase k (.opened s.store n m a.tag p) } k
  | _, _, _ => badArg s

/-- CASE_OPEN (R10). -/
def execCaseOpen (args : Body CaseOpenArgs) (s : State) : Result := .next (s.request .setOnly args caseOpen)

/-! ## The requests on one slot -/

/-- What every request on the case of a slot begins with: BAD-ARG for a slot out of range (R1) and NO-CASE for an EMPTY
slot. -/
def State.onCase (s : State) (slot : Byte) (act : SlotIx → CaseRecord → Reply) : Reply :=
  match s.rack.slotArg slot with
  | none => badArg s
  | some k =>
    match (s.rack.slot k).record with
    | none => refuse s .noCase
    | some c => act k c

/-- Some stage of the case's model needs more units than the rack budget (R11, R13). This BAD-ARG needs an open case, so
its place before NO-CASE makes no difference. -/
def State.needTooGreat (s : State) (c : CaseRecord) : Bool :=
  s.rack.budgetUnits < (caseModel s.store c).largestNeed

/-- The case enters its run: it asks for its stage's units and enters POWERING when granted, else WAITING with the rail
off (R11, R14, R122). -/
def Rack.beginRun (st : Store) (r : Rack) (k : SlotIx) : Rack :=
  let r := (r.modCase k fun c => { c with strikes := 0 }).requestUnits st k (r.stage st k).units
  if r.queued k then r.enter k .waiting else r.enterPowering st k

/-- CASE START (R11). -/
def caseStart (a : SlotArgs) (s : State) : Reply :=
  s.onCase a.slot fun k c =>
    if s.needTooGreat c then badArg s
    else if c.state ≠ .ready then refuse s .state
    else if !(s.rack.slot k).latchClosed then refuse s .state
    else if s.rack.quiesce ≠ .active then refuse s .quiesced
    else doneCase (s.withRack (s.rack.beginRun s.store k)) k

/-- CASE_START (R11). -/
def execCaseStart (args : Body SlotArgs) (s : State) : Result := .next (s.request .setOnly args caseStart)

/-- CASE PAUSE (R12). -/
def casePause (a : SlotArgs) (s : State) : Reply :=
  s.onCase a.slot fun k c =>
    if c.state ≠ .running then refuse s .state
    else doneCase (s.withRack (s.rack.enter k .paused)) k

/-- CASE_PAUSE (R12). -/
def execCasePause (args : Body SlotArgs) (s : State) : Result := .next (s.request .setOnly args casePause)

/-- A PAUSED case returns to RUNNING; a held advance is taken at once, else the sequencer goes on (R13, R19). -/
def Rack.resumePaused (st : Store) (r : Rack) (k : SlotIx) : Rack :=
  ((r.modCase k fun c => { c with strikes := 0 }).enter k .running).proceed st k

/-- A FAULTED case begins a fresh run in a new stay at its position (R14, R93). -/
def Rack.resumeFaulted (st : Store) (r : Rack) (k : SlotIx) (c : CaseRecord) : Rack :=
  ((r.beginStay st k c.stay.position).untrip k).beginRun st k

/-- CASE RESUME (R13, R14). -/
def caseResume (a : SlotArgs) (s : State) : Reply :=
  s.onCase a.slot fun k c =>
    if s.needTooGreat c then badArg s
    else
      match c.state with
      | .paused =>
        if !(s.rack.slot k).latchClosed then refuse s .state
        else if s.rack.quiesce ≠ .active then refuse s .quiesced
        else doneCase (s.withRack (s.rack.resumePaused s.store k)) k
      | .faulted _ =>
        if !(s.rack.slot k).latchClosed then refuse s .state
        else if s.rack.quiesce ≠ .active then refuse s .quiesced
        else doneCase (s.withRack (s.rack.resumeFaulted s.store k c)) k
      | .ready | .waiting | .powering | .running | .resting | .pulled | .done _ _ => refuse s .state

/-- CASE_RESUME (R13, R14). -/
def execCaseResume (args : Body SlotArgs) (s : State) : Result := .next (s.request .setOnly args caseResume)

/-- CASE STOP ends the run (R15). -/
def Rack.stopCase (st : Store) (r : Rack) (k : SlotIx) : Rack :=
  let r := (r.untrip k).modStay k fun y => { y with draining := false, heldAdvance := false }
  (r.endRun st k (r.doneState k .stopped)).proceed st k

/-- CASE STOP is taken in a run and in FAULTED (R15). -/
def CaseState.stoppable : CaseState → Bool
  | .waiting | .powering | .running | .paused | .resting | .faulted _ => true
  | .ready | .pulled | .done _ _ => false

/-- CASE STOP (R15). -/
def caseStop (a : SlotArgs) (s : State) : Reply :=
  s.onCase a.slot fun k c =>
    if c.state.stoppable then doneCase (s.withRack (s.rack.stopCase s.store k)) k else refuse s .state

/-- CASE_STOP (R15). -/
def execCaseStop (args : Body SlotArgs) (s : State) : Result := .next (s.request .setOnly args caseStop)

/-- CASE CLOSE retires the case: the record is EMPTY, its suspects go with it, a TRIPPED rail becomes OFF, the pointer copy
is 000000h, the stamp advances and the slot enters the notice set (R27, R54, R118, R160, R202). -/
def Rack.closeCase (r : Rack) (k : SlotIx) : Rack :=
  (((r.untrip k).modSlot k fun sl =>
    { sl with record := none, line := { sl.line with pointer := 0, sure := false }, watch := sl.watch.disarm }).stamp
      k).noticeSlot k

/-- CASE CLOSE (R27). -/
def caseClose (a : SlotArgs) (s : State) : Reply :=
  s.onCase a.slot fun k c =>
    if c.state.inRun then refuse s .state else doneCase (s.withRack (s.rack.closeCase k)) k

/-- CASE_CLOSE (R27). -/
def execCaseClose (args : Body SlotArgs) (s : State) : Result := .next (s.request .setOnly args caseClose)

/-! ## CASE LOOK and CASE FIND -/

/-- The slot in use whose open case meets a condition; at most one does where this is used (R30, R31). -/
def Rack.findCase (r : Rack) (p : CaseRecord → Bool) : Option SlotIx :=
  allSlots.find? fun k => r.inUse k && (r.slot k).record.any p

/-- CASE LOOK (R30). -/
def caseLook (a : CaseName) (s : State) : Reply :=
  match a with
  | .bySlot b =>
    match s.rack.slotArg b with
    | none => badArg s
    | some k => done s (lookBody s.rack k)
  | .byNumber n =>
    if n = 0 then badArg s
    else
      match s.rack.findCase fun c => c.number == n with
      | none => refuse s .noCase
      | some k => done s (lookBody s.rack k)

/-- CASE_LOOK (R30). -/
def execCaseLook (args : Body CaseName) (s : State) : Result := .next (s.request .setOnly args caseLook)

/-- CASE FIND (R31). The prefix of R233 gives the slot and the case number (log entry 20). -/
def caseFind (a : CaseFindArgs) (s : State) : Reply :=
  if !tagArg a.tag then badArg s
  else
    match s.rack.findCase fun c => c.tag == a.tag with
    | none => refuse s .noCase
    | some k => doneCase s k

/-- CASE_FIND (R31). -/
def execCaseFind (args : Body CaseFindArgs) (s : State) : Result := .next (s.request .setOnly args caseFind)

/-! ## CASE AMEND -/

/-- The arguments of an AMEND pass check 1: some change is named, a new tag is good and a new priority is one (R28). -/
def amendGood (a : CaseAmendArgs) : Bool :=
  (a.newTag.isSome || a.newPriority.isSome || a.forgetId) && a.newTag.all tagArg
    && a.newPriority.all fun b => (priorityArg b).isSome

/-- The new priority of an AMEND, if it names one. -/
def amendPriority (a : CaseAmendArgs) : Option Priority := a.newPriority.bind priorityArg

/-- The named fields change (R28). -/
def CaseRecord.amend (a : CaseAmendArgs) (c : CaseRecord) : CaseRecord :=
  { c with tag := a.newTag.getD c.tag, priority := (amendPriority a).getD c.priority
           boardId := if a.forgetId then none else c.boardId }

/-- A taken AMEND: the fields change, the stamp advances, and a priority change moves the queue entry with a grant pass
(R28, R128). A grant made by that pass is the arbiter's own event and moves the stamp again (log entry 30). -/
def Rack.amendCase (st : Store) (r : Rack) (k : SlotIx) (c : CaseRecord) (a : CaseAmendArgs) : Rack :=
  let amended := (r.modCase k (CaseRecord.amend a)).stamp k
  match amendPriority a with
  | none => amended
  | some p => if p ≠ c.priority ∧ r.queued k then (amended.moveEntry k p).grantPass st else amended

/-- CASE AMEND (R28). -/
def caseAmend (a : CaseAmendArgs) (s : State) : Reply :=
  if !amendGood a then badArg s
  else
    s.onCase a.slot fun k c =>
      if a.stamp ≠ (s.rack.slot k).stamp then stale s k
      else if a.newTag.any (s.rack.holdsTag (some k)) then refuse s .duplicate
      else doneCase (s.withRack (s.rack.amendCase s.store k c a)) k

/-- CASE_AMEND (R28). -/
def execCaseAmend (args : Body CaseAmendArgs) (s : State) : Result := .next (s.request .setOnly args caseAmend)

end Sys2Proof.Machine
end

