-- ==== Sys2Proof/Machine/SuspectRequests.lean ====
section
/-! DEFINITION. The suspect requests: SUSPECT LIST, SUSPECT NOTE with its three actions, SUSPECT SWEEP and REWORK (R53, R55 to
R64). -/

namespace Sys2Proof.Machine

/-! ## SUSPECT LIST -/

/-- SUSPECT LIST (R63). -/
def suspectList (a : SuspectListArgs) (s : State) : Reply :=
  if !within 1 24 a.firstRank.toNat then badArg s
  else s.onCase a.slot fun k c => done s (listBody s.store s.rack k c a.firstRank.toNat)

/-- SUSPECT_LIST (R63). -/
def execSuspectList (args : Body SuspectListArgs) (s : State) : Result := .next (s.request .setOnly args suspectList)

/-! ## SUSPECT NOTE -/

/-- The greatest component index that a request may name for a slot: the component count of its case's model, 24 for an
EMPTY slot (R55, R59). -/
def State.componentLimit (s : State) (k : SlotIx) : Nat :=
  match (s.rack.slot k).record with
  | none => 24
  | some c => (caseModel s.store c).components.length

/-- The checks that the three actions share: BAD-ARG, NO-CASE, STALE (R59). -/
def State.onNote (s : State) (a : NoteArgs) (act : SlotIx → CaseRecord → Reply) : Reply :=
  match s.rack.slotArg a.slot with
  | none => badArg s
  | some k =>
    if !within 1 (s.componentLimit k) a.component.toNat then badArg s
    else
      match (s.rack.slot k).record with
      | none => refuse s .noCase
      | some c => if a.stamp ≠ (s.rack.slot k).stamp then stale s k else act k c

/-- A taken note: the stamp moves once, and the answer shows the suspect after it (R59). -/
def State.noted (s : State) (k : SlotIx) (component : Nat) (r : Rack) : Reply :=
  let r := r.stamp k
  done (s.withRack r) (casePrefix r k ++ noteBody r k component)

/-- SUSPECT NOTE FAIL: a FAIL item with symptom MANUAL, phase none and no position; FULL when it finds no entry
(R53, R60). -/
def suspectNoteFail (a : NoteArgs) (s : State) : Reply :=
  s.onNote a fun k _ =>
    match s.rack.takeFail s.store k a.component.toNat ⟨.manual, none, none⟩ with
    | none => refuse s .full
    | some (r, _) => s.noted k a.component.toNat r

/-- SUSPECT_NOTE_FAIL (R60). -/
def execSuspectNoteFail (args : Body NoteArgs) (s : State) : Result := .next (s.request .setOnly args suspectNoteFail)

/-- The case's suspect for a component takes a state given by hand, and its place in the list (R61, R62). -/
def Rack.judgeSuspect (r : Rack) (k : SlotIx) (c : CaseRecord) (x : Suspect) (after : SuspectState) : Rack :=
  (r.setList k (rankPlace { x with state := after } c.suspects)).noticeConfirmed k (some x.state) after

/-- SUSPECT NOTE CONFIRM (R61). -/
def suspectNoteConfirm (a : NoteArgs) (s : State) : Reply :=
  s.onNote a fun k c =>
    match suspectFor a.component.toNat c.suspects with
    | none => refuse s .state
    | some x =>
      if x.state = .reworked then refuse s .state
      else s.noted k a.component.toNat (s.rack.judgeSuspect k c x .confirmed)

/-- SUSPECT_NOTE_CONFIRM (R61). -/
def execSuspectNoteConfirm (args : Body NoteArgs) (s : State) : Result :=
  .next (s.request .setOnly args suspectNoteConfirm)

/-- SUSPECT NOTE CLEAR (R62). -/
def suspectNoteClear (a : NoteArgs) (s : State) : Reply :=
  s.onNote a fun k c =>
    match suspectFor a.component.toNat c.suspects with
    | none => refuse s .state
    | some x =>
      if x.state = .confirmed ∨ x.state = .reworked then refuse s .state
      else s.noted k a.component.toNat (s.rack.judgeSuspect k c x .cleared)

/-- SUSPECT_NOTE_CLEAR (R62). -/
def execSuspectNoteClear (args : Body NoteArgs) (s : State) : Result := .next (s.request .setOnly args suspectNoteClear)

/-! ## SUSPECT SWEEP -/

/-- The entry of a slot in a sweep, if its case names the model and holds the suspect (R64). -/
def Rack.sweepEntry (r : Rack) (m : ModelIx) (component : Nat) (k : SlotIx) : Option (List Byte) :=
  if r.inUse k then
    (r.slot k).record.bind fun c =>
      if c.model = m then (suspectFor component c.suspects).map (sweepBytes k c) else none
  else none

/-- The component index of a sweep is in its range (R64). -/
def Store.sweepComponent (st : Store) (m : ModelIx) (component : Nat) : Bool :=
  let slot := st.slots[m]
  within 1 (if slot.state == .valid || slot.state == .locked then (st.model m).components.length else 24) component

/-- SUSPECT SWEEP (R64). -/
def suspectSweep (a : SweepArgs) (s : State) : Reply :=
  match modelArg a.model with
  | none => badArg s
  | some m =>
    if !s.store.sweepComponent m a.component.toNat then badArg s
    else if s.store.noModel m then refuse s .noModel
    else if (s.store.slots[m]).state == .programming || s.store.clearing then refuse s .busy
    else done s (counted (allSlots.filterMap (s.rack.sweepEntry m a.component.toNat)))

/-- SUSPECT_SWEEP (R64). -/
def execSuspectSweep (args : Body SweepArgs) (s : State) : Result := .next (s.request .setOnly args suspectSweep)

/-! ## REWORK -/

/-- What a REWORK names (R55). -/
inductive ReworkTarget where
  | range (first last : Addr)
  | component (index : Nat)
  deriving DecidableEq, Repr

/-- Exactly one of a range, first not above last, and a component (R55). -/
def reworkTarget (a : ReworkArgs) : Option ReworkTarget :=
  match a.range, a.component with
  | some (first, last), none => if first ≤ last then some (.range first last) else none
  | none, some i => some (.component i.toNat)
  | some _, some _ => none
  | none, none => none

/-- A component index is within the limit of its slot (R55). -/
def ReworkTarget.within (limit : Nat) : ReworkTarget → Bool
  | .range _ _ => true
  | .component i => Machine.within 1 limit i

/-- A REWORK selects a suspect (R56). -/
def ReworkTarget.selects (m : Model) (t : ReworkTarget) (x : Suspect) : Bool :=
  match t with
  | .component i => x.component == i
  | .range first last =>
    match (m.components[x.component - 1]?).bind (·.range) with
    | none => false
    | some (low, high) => low ≤ last && first ≤ high

/-- A selected suspect becomes REWORKED (R57). -/
def Suspect.rework (x : Suspect) : Suspect :=
  { x with state := .reworked, fails := 0, hotFails := 0, passes := 0, quiet := 0, positionsSeen := 0,
           firstSeen := none, lastSeen := none }

/-- The list after a REWORK, in rank order (R57, R38). -/
def reworkList (m : Model) (t : ReworkTarget) (l : List Suspect) : List Suspect :=
  rankSort (l.map fun x => if t.selects m x then x.rework else x)

/-- REWORK on an open case (R57, R58): with nothing selected only the stamp moves. -/
def Rack.reworkCase (st : Store) (r : Rack) (k : SlotIx) (c : CaseRecord) (t : ReworkTarget) : Rack :=
  if c.suspects.any (t.selects (caseModel st c)) then
    let r := (r.setList k (reworkList (caseModel st c) t c.suspects)).modCase k fun c => { c with poolFull := false }
    match c.state with
    | .done _ _ => (r.beginStay st k ⟨1, 1⟩).enter k .ready
    | .ready | .waiting | .powering | .running | .paused | .resting | .faulted _ | .pulled => r.stamp k
  else r.stamp k

/-- REWORK is taken in READY, DONE and FAULTED (R55). -/
def CaseState.reworkable : CaseState → Bool
  | .ready | .done _ _ | .faulted _ => true
  | .waiting | .powering | .running | .paused | .resting | .pulled => false

/-- REWORK (R55 to R58). -/
def rework (a : ReworkArgs) (s : State) : Reply :=
  match s.rack.slotArg a.slot, reworkTarget a with
  | some k, some t =>
    if !t.within (s.componentLimit k) then badArg s
    else
      match (s.rack.slot k).record with
      | none => refuse s .noCase
      | some c =>
        if a.stamp ≠ (s.rack.slot k).stamp then stale s k
        else if !c.state.reworkable then refuse s .state
        else doneCase (s.withRack (s.rack.reworkCase s.store k c t)) k
  | _, _ => badArg s

/-- REWORK (R55 to R58). -/
def execRework (args : Body ReworkArgs) (s : State) : Result := .next (s.request .setOnly args rework)

end Sys2Proof.Machine
end

