-- ==== Sys2Proof/Machine/ModelRequests.lean ====
section
/-! DEFINITION. The model requests: the staging record, MODEL COMMIT with its validation, MODEL READ, MODEL LOCK and STORE CLEAR
(R75 to R88). -/

namespace Sys2Proof.Machine

/-! ## The staging record (R75 to R80) -/

/-- The state with another store. -/
def State.withStore (s : State) (st : Store) : State := { s with store := st }

/-- A store write is in progress (R84). -/
def Store.busy (st : Store) : Bool := st.write.isSome

/-- A taken staging request: the record becomes `m`, and the answer is its condition and counts (R75). -/
def State.staged (s : State) (m : Option Model) : Reply :=
  done (s.withStore { s.store with staging := m }) (stagingBody m)

/-- The header that MODEL BEGIN gives, when every field is in its range (R67, R76). -/
def headerArg (a : ModelBeginArgs) : Option Header :=
  match lineRateArg a.lineRate with
  | none => none
  | some rate =>
    if stringArg 12 a.name ∧ within 0 3 a.retries.toNat ∧ within 1 255 a.confirmThreshold.toNat
        ∧ within 1 16 a.confirmSpread.toNat ∧ within 1 65535 a.bootAllowance.toNat ∧ within 0 15 a.strikeLimit.toNat
        ∧ within 1 255 a.restTime.toNat ∧ within 1 255 a.riseAllowance.toNat ∧ within 1 255 a.sagAllowance.toNat
        ∧ within 1 255 a.cycles.toNat ∧ within 1 24 a.path.toNat ∧ within 1 24 a.rail.toNat
        ∧ within 1 24 a.hang.toNat then
      some ⟨a.name, rate, a.retries.toNat, a.confirmThreshold.toNat, a.confirmSpread.toNat, a.clearCount.toNat,
        a.bootAllowance.toNat, a.strikeLimit.toNat, a.restTime.toNat, a.riseAllowance.toNat, a.sagAllowance.toNat,
        a.cycles.toNat, a.path.toNat, a.rail.toNat, a.hang.toNat⟩
    else none

/-- MODEL BEGIN (R76). -/
def modelBegin (a : ModelBeginArgs) (s : State) : Reply :=
  match headerArg a with
  | none => badArg s
  | some h =>
    if s.store.busy then refuse s .busy else s.staged (some ⟨h, [], [], Vector.replicate 4 []⟩)

/-- MODEL_BEGIN (R76). -/
def execModelBegin (args : Body ModelBeginArgs) (s : State) : Result := .next (s.request .setOnly args modelBegin)

/-- What an ADD request does with a good entry: BUSY, STATE and FULL in this order, else the entry is appended
(R77 to R79). -/
def State.addToStaging (s : State) (full : Model → Bool) (add : Model → Model) : Reply :=
  if s.store.busy then refuse s .busy
  else
    match s.store.staging with
    | none => refuse s .state
    | some m => if full m then refuse s .full else s.staged (some (add m))

/-- The entry that MODEL ADD COMPONENT gives, when it passes its BAD-ARG check; a range without a wait class has wait
class 0 (R77). -/
def componentArg (a : AddComponentArgs) : Option Component :=
  match classArg a.cls with
  | none => none
  | some cls =>
    if stringArg 8 a.designator ∧ (a.waitClass.isSome → a.range.isSome) ∧ a.waitClass.all (within 0 7 ·.toNat) then
      some ⟨a.designator, cls, a.range, (a.waitClass.map (·.toNat)).getD 0⟩
    else none

/-- MODEL ADD COMPONENT (R77). -/
def modelAddComponent (a : AddComponentArgs) (s : State) : Reply :=
  match componentArg a with
  | none => badArg s
  | some x =>
    s.addToStaging (fun m => 24 ≤ m.components.length) fun m => { m with components := m.components ++ [x] }

/-- MODEL_ADD_COMPONENT (R77). -/
def execModelAddComponent (args : Body AddComponentArgs) (s : State) : Result :=
  .next (s.request .setOnly args modelAddComponent)

/-- The stage that MODEL ADD STAGE gives, when every field is in its range (R69, R78). -/
def stageArg (a : AddStageArgs) : Option Stage :=
  match marginArg a.margin with
  | none => none
  | some margin =>
    if within 1 16777215 a.duration.toNat ∧ within 0 100 a.dutyA.toNat ∧ within 0 100 a.dutyB.toNat
        ∧ within 0 15 a.units.toNat ∧ within 0 4 a.program.toNat then
      some ⟨a.duration.toNat, margin, a.dutyA.toNat, a.dutyB.toNat, a.halfPeriod.toNat, a.units.toNat,
        a.program.toNat, a.window.toNat⟩
    else none

/-- MODEL ADD STAGE (R78). -/
def modelAddStage (a : AddStageArgs) (s : State) : Reply :=
  match stageArg a with
  | none => badArg s
  | some x => s.addToStaging (fun m => 8 ≤ m.stages.length) fun m => { m with stages := m.stages ++ [x] }

/-- MODEL_ADD_STAGE (R78). -/
def execModelAddStage (args : Body AddStageArgs) (s : State) : Result :=
  .next (s.request .setOnly args modelAddStage)

/-- A program number, 1 to 4 (R79). -/
def programArg (b : Byte) : Option (Fin 4) :=
  if h : 1 ≤ b.toNat ∧ b.toNat ≤ 4 then some ⟨b.toNat - 1, by omega⟩ else none

/-- A step appended to a program's list (R79). -/
def Model.addStep (m : Model) (p : Fin 4) (x : Step) : Model :=
  { m with programs := m.programs.set p (m.programs[p] ++ [x]) }

/-- MODEL ADD STEP (R79): the fields beside the program number are stored as given. -/
def modelAddStep (a : AddStepArgs) (s : State) : Reply :=
  match programArg a.program with
  | some p =>
    s.addToStaging (fun m => 32 ≤ m.programs[p].length) fun m =>
      m.addStep p ⟨a.kind, a.start, a.count.toNat, a.pattern, a.value, a.mask, a.bound⟩
  | none => badArg s

/-- MODEL_ADD_STEP (R79). -/
def execModelAddStep (args : Body AddStepArgs) (s : State) : Result := .next (s.request .setOnly args modelAddStep)

/-- MODEL DISCARD (R80). -/
def modelDiscard (_ : NoArgs) (s : State) : Reply := if s.store.busy then refuse s .busy else s.staged none

/-- MODEL_DISCARD (R80). -/
def execModelDiscard (args : Body NoArgs) (s : State) : Result := .next (s.request .setOnly args modelDiscard)

/-! ## Validation (R81) -/

/-- The place, counted from 1, of the first entry with a property. -/
def firstIndex {α : Type} (p : α → Bool) (l : List α) : Option Nat := (l.findIdx? p).map (· + 1)

/-- A range with first greater than last. -/
def Component.badRange (x : Component) : Bool := x.range.any fun (first, last) => last < first

/-- Two ranges overlap when the first of each is not above the last of the other (R81). -/
def Component.overlaps (x y : Component) : Bool :=
  match x.range, y.range with
  | some (a, b), some (c, d) => a ≤ d && c ≤ b
  | none, _ => false
  | some _, none => false

/-- The lowest overlapping pair, by the smaller index, then the larger (R81). -/
def firstOverlap : Nat → List Component → Option (Nat × Nat)
  | _, [] => none
  | i, x :: xs =>
    match xs.findIdx? x.overlaps with
    | some d => some (i, i + 1 + d)
    | none => firstOverlap (i + 1) xs

/-- The first role, of path, rail and hang, whose index is above the component count (R81). -/
def badRole (h : Header) (count : Nat) : Option Nat := firstIndex (fun i => count < i) [h.path, h.rail, h.hang]

/-- A field that the step's kind and pattern do not use is not 0 (R70, R81). -/
def Step.unusedSet (x : Step) : Bool :=
  match stepKind? x.kind with
  | none => false
  | some .hail => x.start != 0 || x.value != 0 || x.mask != 0
  | some .peek => pattern? x.pattern != some .fixed && x.value != 0
  | some .poke => x.mask != 0 || (pattern? x.pattern != some .fixed && x.value != 0)

/-- A step breaks R70 (R81); its bound-to-next mark does so when it is neither yes nor no (R70, R79; log entry 21). -/
def Step.breaksRules (x : Step) : Bool :=
  (stepKind? x.kind).isNone || x.count == 0 || 4096 < x.count || (pattern? x.pattern).isNone
    || (stepKind? x.kind == some .hail && pattern? x.pattern != some .fixed)
    || ((stepKind? x.kind == some .peek || stepKind? x.kind == some .poke) && 0x1000000 < x.start.toNat + x.count)
    || x.unusedSet || 1 < x.bound.toNat

/-- The lowest program, then the lowest step in it, that breaks R70 (R81). -/
def firstBadStep : Nat → List (List Step) → Option (Nat × Nat)
  | _, [] => none
  | p, steps :: rest =>
    match firstIndex Step.breaksRules steps with
    | some n => some (p, n)
    | none => firstBadStep (p + 1) rest

/-- The last step of a program is marked bound-to-next (R81). -/
def trailingBound (steps : List Step) : Bool := steps.getLast?.any Step.isBound

/-- A stage names a program whose list is empty (R81). -/
def emptyProgram (m : Model) (x : Stage) : Bool := x.program != 0 && (m.program x.program).isEmpty

/-- A locator of two indices. -/
def pair (ij : Nat × Nat) : Nat := ij.1 * 256 + ij.2

/-- The first check of R81 that a record fails, with its detail code and locator. -/
def Model.fault (m : Model) : Option (Nat × Nat) :=
  if m.components = [] then some (1, 0)
  else if m.stages = [] then some (2, 0)
  else
    ((firstIndex Component.badRange m.components).map (3, ·))
    <|> ((firstOverlap 1 m.components).map fun ij => (4, pair ij))
    <|> ((badRole m.header m.components.length).map (5, ·))
    <|> ((firstBadStep 1 m.programs.toList).map fun ps => (6, pair ps))
    <|> ((firstIndex trailingBound m.programs.toList).map (7, ·))
    <|> ((firstIndex (emptyProgram m) m.stages).map (8, ·))

/-! ## MODEL COMMIT (R81, R82) -/

/-- The number of open cases that name a model slot (R82, R88). -/
def Rack.casesNaming (r : Rack) (m : ModelIx) : Nat :=
  allSlots.countP fun k => (r.slot k).record.any fun c => c.model == m

/-- A model slot becomes `slot`. -/
def Store.setSlot (st : Store) (m : ModelIx) (slot : ModelSlot) : Store := { st with slots := st.slots.set m slot }

/-- An accepted commit: the target is PROGRAMMING with the staging record's content, its marks as programming leaves them
at first, the staging record is NONE and the programming is the store write in progress (R82, R83). -/
def Store.accept (st : Store) (m : ModelIx) (record : Model) : Store :=
  { st.setSlot m ⟨.programming, .begun, false, some record⟩ with staging := none, write := some (.programming m) }

/-- MODEL COMMIT (R81, R82). -/
def modelCommit (a : ModelSlotArgs) (s : State) : Reply :=
  match modelArg a.model with
  | none => badArg s
  | some m =>
    match s.store.staging with
    | none => (s, .badArg 1 0)
    | some record =>
      match record.fault with
      | some (detail, locator) => (s, .badArg detail locator)
      | none =>
        if s.store.busy then refuse s .busy
        else if (s.store.slots[m]).state = .locked then refuse s .locked
        else if s.rack.casesNaming m ≠ 0 then refuse s .inUse
        else (s.withStore (s.store.accept m record),
          ⟨.accepted, [byte (modelNumber m), byte ModelSlotState.programming.code]⟩)

/-- MODEL_COMMIT (R81, R82). -/
def execModelCommit (args : Body ModelSlotArgs) (s : State) : Result := .next (s.request .setOnly args modelCommit)

/-! ## MODEL READ (R88) -/

/-- The part names an entry in its range, or one that the model holds when the slot is VALID or LOCKED (R88). -/
def ModelPart.inRange (held : Bool) (m : Model) (part : ModelPart) : Bool :=
  match part with
  | .header => true
  | .component i => within 1 (if held then m.components.length else 24) i.toNat
  | .stage i => within 1 (if held then m.stages.length else 8) i.toNat
  | .step i p => within 1 4 p.toNat && within 1 (if held then (m.program p.toNat).length else 32) i.toNat

/-- The body of a part (R88). -/
def partBody (state : ModelSlotState) (m : Model) (openCases : Nat) (part : ModelPart) : List Byte :=
  match part with
  | .header => headerBody state m openCases
  | .component i => ((m.components[i.toNat - 1]?).map componentBody).getD []
  | .stage i => ((m.stages[i.toNat - 1]?).map stageBody).getD []
  | .step i p => (((m.program p.toNat)[i.toNat - 1]?).map stepBody).getD []

/-- MODEL READ (R88). -/
def modelRead (a : ModelReadArgs) (s : State) : Reply :=
  match modelArg a.model with
  | none => badArg s
  | some m =>
    let slot := s.store.slots[m]
    if !ModelPart.inRange (slot.state == .valid || slot.state == .locked) (s.store.model m) a.part then badArg s
    else if s.store.noModel m then refuse s .noModel
    else if s.store.busy then refuse s .busy
    else done s (partBody slot.state (s.store.model m) (s.rack.casesNaming m) a.part)

/-- MODEL_READ (R88). -/
def execModelRead (args : Body ModelReadArgs) (s : State) : Result := .next (s.request .setOnly args modelRead)

/-! ## MODEL LOCK and STORE CLEAR (R85, R86) -/

/-- A taken lock: the slot is LOCKED and its lock mark is being written (R85). -/
def Store.lock (st : Store) (m : ModelIx) : Store :=
  { st.setSlot m { st.slots[m] with state := .locked, lockMark := false } with write := some (.lockMark m) }

/-- MODEL LOCK (R85). -/
def modelLock (a : ModelSlotArgs) (s : State) : Reply :=
  match modelArg a.model with
  | none => badArg s
  | some m =>
    if s.store.busy then refuse s .busy
    else if (s.store.slots[m]).state ≠ .valid then refuse s .state
    else done (s.withStore (s.store.lock m)) []

/-- MODEL_LOCK (R85). -/
def execModelLock (args : Body ModelSlotArgs) (s : State) : Result := .next (s.request .setOnly args modelLock)

/-- STORE CLEAR (R86): an accepted clear begins at model slot 1. -/
def storeClear (_ : NoArgs) (s : State) : Reply :=
  if s.store.busy then refuse s .busy
  else if allSlots.any fun k => (s.rack.slot k).record.isSome then refuse s .inUse
  else (s.withStore { s.store with write := some (.clear 0 false) }, ⟨.accepted, []⟩)

/-- STORE_CLEAR (R86). -/
def execStoreClear (args : Body NoArgs) (s : State) : Result := .next (s.request .setOnly args storeClear)

end Sys2Proof.Machine
end

