-- ==== Sys2Proof/Machine/RackRequests.lean ====
section
/-! DEFINITION. HEATER TRIM, RACK QUIESCE, RACK WAKE, BUDGET LOOK, the rack requests, and the frames that carry no request
(R109, R111, R116, R131, R218, R219, R222, R226, R229 to R231). -/

namespace Sys2Proof.Machine

/-! ## HEATER TRIM (R109) -/

/-- The holder a trim writes: the one not driving, which with half-period 0 is B (R105, R109). -/
def trimmedHolder (halfPeriod : Nat) (y : Stay) : Holder :=
  if halfPeriod = 0 then .b else match y.driving with | .a => .b | .b => .a

/-- A holder takes a duty. -/
def Stay.setHolder (h : Holder) (duty : Nat) (y : Stay) : Stay :=
  match h with
  | .a => { y with holderA := duty }
  | .b => { y with holderB := duty }

/-- HEATER TRIM is taken in RUNNING, PAUSED and WAITING (R109). -/
def CaseState.trimmable : CaseState → Bool
  | .running | .paused | .waiting => true
  | .ready | .powering | .resting | .faulted _ | .pulled | .done _ _ => false

/-- The answer of a trim: slot, holder written, both duties, driving holder, stamp (R109). -/
def trimBody (r : Rack) (k : SlotIx) (written : Holder) : List Byte :=
  let y := (r.slot k).stay
  [byte (slotNumber k), byte written.code, byte y.holderA, byte y.holderB, byte y.driving.code]
    ++ halfBytes (r.slot k).stamp

/-- HEATER TRIM (R109). -/
def heaterTrim (a : TrimArgs) (s : State) : Reply :=
  if !within 0 100 a.duty.toNat then badArg s
  else
    s.onCase a.slot fun k c =>
      if c.state.trimmable then
        let h := trimmedHolder (caseStage s.store c).halfPeriod c.stay
        let r := s.rack.modStay k (Stay.setHolder h a.duty.toNat)
        done (s.withRack r) (trimBody r k h)
      else refuse s .state

/-- HEATER_TRIM (R109). -/
def execHeaterTrim (args : Body TrimArgs) (s : State) : Result := .next (s.request .setOnly args heaterTrim)

/-! ## RACK QUIESCE and RACK WAKE (R111, R116) -/

/-- The answer of RACK QUIESCE and RACK WAKE: the quiesce state after the request. -/
def quiesceReply (s : State) : Reply := done s [byte s.rack.quiesce.code]

/-- An ACTIVE rack becomes QUIESCING, and QUIESCED at once when every sequencer is idle (R111). -/
def Rack.beginQuiesce (r : Rack) : Rack :=
  if r.quiesce = .active then Rack.checkQuiesced { r with quiesce := .quiescing } else r

/-- RACK QUIESCE (R111). -/
def rackQuiesce (_ : NoArgs) (s : State) : Reply := quiesceReply (s.withRack s.rack.beginQuiesce)

/-- RACK_QUIESCE (R111). -/
def execRackQuiesce (args : Body NoArgs) (s : State) : Result := .next (s.request .setOnly args rackQuiesce)

/-- What a wake does in an order of its own: the grant pass, and the held advances (R116). -/
inductive WakeAction where
  | grantPass
  | advance (slot : SlotIx)
  deriving DecidableEq, Repr

/-- An action's number for the free order: 0 for the grant pass, else its slot number (log entry 5). -/
def WakeAction.number : WakeAction → Nat
  | .grantPass => 0
  | .advance k => slotNumber k

/-- A held advance that a wake takes: its case is RUNNING and its slot not granted to the bench (R116). -/
def Rack.wakeAdvance (r : Rack) (k : SlotIx) : Bool :=
  (r.slot k).stay.heldAdvance && (r.slot k).caseState == some .running && !r.isGranted k

/-- The actions of a wake. -/
def Rack.wakeActions (r : Rack) : List WakeAction := .grantPass :: (allSlots.filter r.wakeAdvance).map .advance

/-- An action is placed by its key. -/
def placeAction (draw : Nat) (a : WakeAction) : List WakeAction → List WakeAction
  | [] => [a]
  | b :: bs =>
    if Config.wakeKey draw a.number ≤ Config.wakeKey draw b.number then a :: b :: bs else b :: placeAction draw a bs

/-- The actions in the free order (log entry 5); a single action has only one. -/
def orderActions (draw : Nat) (l : List WakeAction) : List WakeAction := l.foldr (placeAction draw) []

/-- One action of a wake (R116, R129). -/
def Rack.takeWakeAction (st : Store) (r : Rack) : WakeAction → Rack
  | .grantPass => r.grantPass st
  | .advance k => r.takeOrHoldAdvance st k

/-- A held rack wakes: it is ACTIVE, the actions are taken in the order given, and every sequencer that may issue its next
exchange does so (R116, R182). -/
def Rack.wake (st : Store) (draw : Nat) (r : Rack) : Rack :=
  let r := { r with quiesce := .active }
  allSlots.foldl (Rack.issue st) ((orderActions draw r.wakeActions).foldl (Rack.takeWakeAction st) r)

/-- RACK WAKE (R116). -/
def rackWake (_ : NoArgs) (s : State) : Reply :=
  if s.rack.quiesce = .active then quiesceReply s
  else quiesceReply { s with rack := s.rack.wake s.store s.freeCount, freeCount := s.freeCount + 1 }

/-- RACK_WAKE (R116). -/
def execRackWake (args : Body NoArgs) (s : State) : Result := .next (s.request .setOnly args rackWake)

/-! ## BUDGET LOOK (R131) -/

/-- BUDGET LOOK (R131). -/
def budgetLook (_ : NoArgs) (s : State) : Reply := done s (budgetBody s.rack.heldTotal s.rack.freeUnits s.rack)

/-- BUDGET_LOOK (R131). -/
def execBudgetLook (args : Body NoArgs) (s : State) : Result := .next (s.request .setOnly args budgetLook)

/-! ## RACK SETUP (R229) -/

/-- Some case is in a run (R229). -/
def Rack.anyInRun (r : Rack) : Bool := allSlots.any fun k => (r.slot k).inRun

/-- A taken setup (R229). -/
def State.setUp (s : State) (tick : TickLength) (budget : Nat) (attention : Bool) : State :=
  { s with rack := { s.rack with budget := some budget }
           port := { s.port with rackState := .set, tick := some tick, attention := attention } }

/-- RACK SETUP (R229). -/
def rackSetup (a : SetupArgs) (s : State) : Reply :=
  match tickArg a.tick, attentionArg a.attention with
  | some tick, some attention =>
    if !within 1 32 a.budget.toNat then badArg s
    else if (s.port.tick ≠ some tick ∨ s.rack.budget ≠ some a.budget.toNat) ∧ s.rack.anyInRun then refuse s .busy
    else done (s.setUp tick a.budget.toNat attention) [a.tick, a.budget, a.attention]
  | _, _ => badArg s

/-- RACK_SETUP (R229). -/
def execRackSetup (args : Body SetupArgs) (s : State) : Result := .next (s.request .unsetOrSet args rackSetup)

/-! ## RACK STATUS (R231) -/

/-- RACK STATUS (R231). -/
def rackStatus (_ : NoArgs) (s : State) : Reply := done s (statusBody s)

/-- RACK_STATUS (R231). -/
def execRackStatus (args : Body NoArgs) (s : State) : Result := .next (s.request .always args rackStatus)

/-! ## RACK RESTART (R230) -/

/-- What the restart does to one slot: a case in a run is FAULTED (RESTART) with its blocks stopped (R26, R168, R137, R192),
and every slot holds no units and an unsure pointer (R130, R173). -/
def Rack.restartSlot (r : Rack) (k : SlotIx) : Rack :=
  let r := if (r.slot k).inRun then (r.dropRun k).enter k (.faulted .restart) else r
  (r.setUnits k 0).modLine k fun l => { l with sure := false }

/-- The controller of a slot whose grant ends: back in IDLE, the last end now, the pointer not sure (R169). -/
def Line.release (l : Line) : Line :=
  match l.state with
  | .passed => { l with state := .idle, lastEnd := .within, sure := false }
  | .idle | .send | .reply | .breaking | .settle => l

/-- The bench port drops its grant or pending HOLD and keeps its debounced levels and their counts (R214). -/
def Rack.dropBench (r : Rack) : Rack :=
  let idle := { r with bench := { r.bench with state := .idle } }
  match r.bench.state with
  | .granted k => (idle.modLine k Line.release).noticeSlot k
  | .idle | .pending _ => idle

/-- The rack's side of RACK RESTART (R26, R117, R130, R214, R230). -/
def Rack.restart (r : Rack) : Rack :=
  let r := Rack.dropBench { r with queue := [], quiesce := .active }
  (allSlots.foldl Rack.restartSlot r).noticeFlag .restarted

/-- RACK RESTART (R230). -/
def rackRestart (_ : NoArgs) (s : State) : Reply :=
  done { s with rack := s.rack.restart
                store := { s.store with staging := none }
                port := { s.port with rackState := .unset, attention := false } } []

/-- RACK_RESTART (R230). -/
def execRackRestart (args : Body NoArgs) (s : State) : Result := .next (s.request .setOnly args rackRestart)

/-! ## NOTICES (R226) -/

/-- NOTICES (R226): the answer carries the set, which is emptied. -/
def notices (_ : NoArgs) (s : State) : Reply :=
  done (s.withRack { s.rack with notices := ⟨0, 0⟩ }) (noticesBody s.rack.notices)

/-- NOTICES (R226). -/
def execNotices (args : Body NoArgs) (s : State) : Result := .next (s.request .unsetOrSet args notices)

/-! ## Frames that carry no request (R218, R219, R222) -/

/-- UNKNOWN_REQUEST (R219): STARTING and NOT-SET-UP come before UNKNOWN (R223), and the code has no other effect. -/
def execUnknownRequest (_code : Byte) (s : State) : Result :=
  .next (s.request .setOnly (some NoArgs.mk) fun _ s => refuse s .unknown)

/-- BAD_FRAME (R218): either fault is answered BAD-FRAME with an empty body, in every rack state. -/
def execBadFrame (_fault : FrameFault) (s : State) : Result :=
  .next (s.settled.onFrame fun s => refuse s .badFrame)

/-- FRAME_COLLISION (R222). Without a pending answer no frame collides (log entry 7). -/
def execFrameCollision (s : State) : Result :=
  .next (if s.port.answer.isSome then s.settled.onFrame fun s => refuse s .none else s.settled)

end Sys2Proof.Machine
end

