-- ==== Sys2Proof/Machine/BenchEvents.lean ====
section
/-! DEFINITION. The bench port: the samples of its lines, HOLD, SEIZE, withdrawal and release (R203 to R211). -/

namespace Sys2Proof.Machine

/-! ## What the port takes -/

/-- A HOLD taken from IDLE: granted at once at a boundary, else PENDING (R205). -/
def Rack.takeHold (r : Rack) (k : SlotIx) : Rack :=
  if (r.slot k).atBoundary then r.benchGrant k else { r with bench := { r.bench with state := .pending k } }

/-- The place of the program counter after a seize: the run's first step inside a bound run, the aborted exchange outside
one; the last exchange is absent (R185). -/
def Sequencer.seized (q : Sequencer) : Sequencer :=
  match q.runStart with
  | some n => { q with step := n, index := 0, runStart := none, lastExchange := none }
  | none => { q with lastExchange := none }

/-- The exchange in flight of a seized slot, if any, is aborted (R168, R185, R208). -/
def Slot.seizeAbort (sl : Slot) : Slot :=
  if sl.line.exchange.isSome then { sl with line := sl.line.abort, seq := sl.seq.seized } else sl

/-- A SEIZE is taken: abort, place, grant (R208); a drain boundary it leaves is held (R98, R213). -/
def Rack.takeSeize (st : Store) (r : Rack) (k : SlotIx) : Rack :=
  ((r.modSlot k Slot.seizeAbort).benchGrant k).proceed st k

/-- The bench port is IDLE; the debounced levels are kept. -/
def Rack.benchIdle (r : Rack) : Rack := { r with bench := { r.bench with state := .idle } }

/-- A pending HOLD is withdrawn with no grant and no notice, and the sequencer goes on (R207). -/
def Rack.withdrawHold (st : Store) (r : Rack) (k : SlotIx) : Rack := r.benchIdle.proceed st k

/-- The grant is released: the controller is back in IDLE, the slot enters the notice set, and the slot goes on (R211). -/
def Rack.releaseBench (st : Store) (r : Rack) (k : SlotIx) : Rack :=
  ((r.benchIdle.modLine k Line.release).noticeSlot k).proceed st k

/-! ## The samples (R203) -/

/-- The debounced levels of BHOLD and BSEIZE after a sample (R203). -/
def Bench.sample (b : Bench) (hold seize : Bool) : Bench :=
  let h := debounce Config.benchSamples b.hold b.holdCount hold
  let z := debounce Config.benchSamples b.seize b.seizeCount seize
  { b with hold := h.1, holdCount := h.2, seize := z.1, seizeCount := z.2 }

/-- In IDLE a request is taken at any sample that finds a debounced level high, for a slot in use: a SEIZE when BSEIZE is
high, else a HOLD (R205). -/
def Rack.benchRequest (st : Store) (r : Rack) (k : SlotIx) : Rack :=
  if r.inUse k then
    if r.bench.seize then r.takeSeize st k else if r.bench.hold then r.takeHold k else r
  else r

/-- A millisecond sample of BHOLD and BSEIZE, with BSEL reading slot `k` (R203). From IDLE a request is taken (R205). In
PENDING and GRANTED both levels low withdraw or release (R207, R211); in PENDING a BSEIZE that becomes high in this sample
is a SEIZE when BSEL names the pending slot; every other request is left waiting (R207). -/
def Rack.benchSample (st : Store) (r : Rack) (k : SlotIx) (hold seize : Bool) : Rack :=
  let rises := !r.bench.seize
  let r := { r with bench := r.bench.sample hold seize }
  match r.bench.state with
  | .idle => r.benchRequest st k
  | .pending j =>
    if r.bench.hold || r.bench.seize then
      if rises && r.bench.seize && j == k then r.takeSeize st k else r
    else r.withdrawHold st j
  | .granted j => if r.bench.hold || r.bench.seize then r else r.releaseBench st j

/-- BENCH_HOLD (R205): a sample of BHOLD high and BSEIZE low (log entry 24). -/
def execBenchHold (bsel : SlotIx) (s : State) : Result :=
  .next (s.onRack fun st r => r.benchSample st bsel true false)

/-- BENCH_SEIZE (R208): a sample of BSEIZE high (log entry 24). -/
def execBenchSeize (bsel : SlotIx) (s : State) (bhold : Bool := false) : Result :=
  .next (s.onRack fun st r => r.benchSample st bsel bhold true)

/-- HOLD_WITHDRAWAL (R207): a sample of both lines low (log entry 24). -/
def execHoldWithdrawal (s : State) (bsel : SlotIx := 0) : Result :=
  .next (s.onRack fun st r => r.benchSample st bsel false false)

/-- BENCH_RELEASE (R211): a sample of both lines low (log entry 24). -/
def execBenchRelease (s : State) (bsel : SlotIx := 0) : Result :=
  .next (s.onRack fun st r => r.benchSample st bsel false false)

end Sys2Proof.Machine
end

