-- ==== Sys2Proof/Machine/PortEvents.lean ====
section
/-! DEFINITION. The events of SEL, what DOUT carries, the bytes of a SEL period, and the hard reset (R217, R218, R220,
R227). -/

namespace Sys2Proof.Machine

/-- The frame that DOUT carries in a period that begins now: the pending answer or a NONE frame, with the flags formed
at this moment (R217, R221). -/
def State.doutFrame (s : State) : List Byte :=
  match s.port.answer with
  | none => frameBytes .none s.flagsByte []
  | some a => frameBytes a.status s.flagsByte a.body

/-- The bit that DOUT takes at a falling edge of CLK: of the next byte of the period's frame, and of 00h after its last one,
the most significant bit first, the bit whose turn it is (R217). -/
def SelPeriod.nextBit (d : SelPeriod) : Bool := (d.dout.getD d.readPosition 0).getMsbD d.bits.length

/-- DOUT takes the bit whose turn it is. -/
def SelPeriod.showBit (d : SelPeriod) : SelPeriod := { d with doutBit := d.nextBit }

/-- The SEL period that a fall of SEL begins: CLK idles low, and DOUT carries the first bit of its frame (R217; log
entry 6). -/
def State.newPeriod (s : State) : SelPeriod :=
  SelPeriod.showBit
    { dout := s.doutFrame, carriesAnswer := s.port.answer.isSome, readPosition := 0, collided := false,
      frameIn := some [], bits := [], clk := false, doutBit := false }

/-- A SEL period begins (R217); within a period SEL does not fall (log entry 7). -/
def State.selFall (s : State) : State :=
  match s.port.period with
  | some _ => s
  | none =>
    { s with port := { s.port with period := some s.newPeriod } }

/-- SEL_FALL (R217). -/
def execSelFall (s : State) : Result := .next s.settled.selFall

/-- The SEL period ends: an incomplete frame is discarded and an unread answer stays pending (R218, R220). -/
def State.selRise (s : State) : State := { s with port := { s.port with period := none } }

/-- SEL_RISE (R218). -/
def execSelRise (s : State) : Result := .next s.settled.selRise

/-! ## DOUT -/

/-- DOUT, released outside a SEL period (R217). -/
def Port.doutLine (p : Port) : Option Bool := p.period.map (·.doutBit)

/-- A byte is shifted out on DOUT (R216). -/
def SelPeriod.shift (d : SelPeriod) : SelPeriod := { d with readPosition := min (d.readPosition + 1) d.dout.length }

/-- The byte on DOUT is the last one of the pending answer, and no collision came in this period, so shifting it out reads
the answer (R220). -/
def SelPeriod.readsAnswer (d : SelPeriod) : Bool :=
  d.carriesAnswer && d.readPosition + 1 == d.dout.length && !d.collided

/-- A byte is shifted out: the answer is read when it is its last byte and no collision came in this period, and then it
is absent, the collided mark is no and RDY is low (R220). -/
def Port.shiftOut (p : Port) : Port :=
  match p.period with
  | none => p
  | some d =>
    let p := { p with period := some d.shift }
    if d.readsAnswer then { p with answer := none, collided := false } else p

/-! ## DIN -/

/-- A byte from its eight DIN bits, the most significant bit first (R217). -/
def byteOfBits (bits : List Bool) : Byte := bits.foldl (fun b bit => (b <<< 1) ||| if bit then 1 else 0) 0

/-- The frame in once a DIN byte is whole: absent after an idle code and at a complete frame, else the bytes so far (R216,
R217, R218). -/
def frameInAfter (received : List Byte) : Option (List Byte) :=
  match judgeFrame received with
  | .incomplete => some received
  | .idle | .faulty _ | .good _ _ => none

/-! ## Hard reset -/

/-- A hard reset: every block takes its values after reset, WIDTH is sampled, the model slots keep their memory, and what
the store was writing is cut off (R89, R227). The queue of commands and the free counter are not the part's
(log entry 25). -/
def State.hardReset (s : State) (widthHigh : Bool) : State :=
  { State.reset with rack := Rack.reset widthHigh
                     store := { s.store with staging := none, write := none }
                     pending := s.pending
                     freeCount := s.freeCount }

/-- HARD_RESET (R227). -/
def execHardReset (widthHigh : Bool) (s : State) : Result := .next (s.hardReset widthHigh)

end Sys2Proof.Machine
end

