-- ==== Sys2Proof/Machine/FrameClock.lean ====
section
/-! DEFINITION. The clock of a SEL period: its falling edges change DOUT, its rising edges sample DIN, and a whole DIN byte may
complete a request frame (R216 to R222). -/

namespace Sys2Proof.Machine

/-- The state that an outcome leaves; every command of this part leaves one. -/
def nextOr (s : State) : Result → State
  | .next t => t
  | .fault _ => s
  | .refused _ => s

/-- The meaning of a command that a complete frame makes (R218, R219). No other command is made by a frame. -/
def frameMeaning (c : Instr) (s : State) : Result :=
  match c with
  | .caseOpen args => execCaseOpen args s
  | .caseStart args => execCaseStart args s
  | .casePause args => execCasePause args s
  | .caseResume args => execCaseResume args s
  | .caseStop args => execCaseStop args s
  | .caseClose args => execCaseClose args s
  | .caseLook args => execCaseLook args s
  | .caseFind args => execCaseFind args s
  | .caseAmend args => execCaseAmend args s
  | .suspectList args => execSuspectList args s
  | .suspectNoteFail args => execSuspectNoteFail args s
  | .suspectNoteConfirm args => execSuspectNoteConfirm args s
  | .suspectNoteClear args => execSuspectNoteClear args s
  | .suspectSweep args => execSuspectSweep args s
  | .rework args => execRework args s
  | .modelBegin args => execModelBegin args s
  | .modelAddComponent args => execModelAddComponent args s
  | .modelAddStage args => execModelAddStage args s
  | .modelAddStep args => execModelAddStep args s
  | .modelCommit args => execModelCommit args s
  | .modelDiscard args => execModelDiscard args s
  | .modelRead args => execModelRead args s
  | .modelLock args => execModelLock args s
  | .storeClear args => execStoreClear args s
  | .heaterTrim args => execHeaterTrim args s
  | .rackQuiesce args => execRackQuiesce args s
  | .rackWake args => execRackWake args s
  | .budgetLook args => execBudgetLook args s
  | .rackSetup args => execRackSetup args s
  | .rackStatus args => execRackStatus args s
  | .rackRestart args => execRackRestart args s
  | .notices args => execNotices args s
  | .unknownRequest code => execUnknownRequest code s
  | .badFrame fault => execBadFrame fault s
  | _ => .next s

/-- A DIN byte is whole. With a frame being assembled it joins the frame in (R216). The byte that completes a frame takes
it, or has it answered or discarded, as the row of that frame does (R218, R219, R222); an idle code and the bytes after
the frame are ignored (R217). -/
def State.receive (s : State) (b : Byte) : State :=
  match s.port.period with
  | none => s
  | some d =>
    match d.frameIn with
    | none => s
    | some received =>
      match frameCommand (received ++ [b]) with
      | some c => nextOr s (frameMeaning c s)
      | none => s.withPeriod { d with frameIn := frameInAfter (received ++ [b]) }

/-- A rising edge of CLK, which samples DIN. At the eighth of a byte the byte is whole on both lines: DOUT's is shifted out
first, so that an answer whose last byte it is has been read when a frame completes at the same byte (R217, R220, R222). -/
def State.risingEdge (s : State) (d : SelPeriod) (din : Bool) : State :=
  let bits := d.bits ++ [din]
  if bits.length < 8 then s.withPeriod { d with clk := true, bits := bits }
  else
    let s := s.withPeriod { d with clk := true, bits := [] }
    State.receive { s with port := s.port.shiftOut } (byteOfBits bits)

/-- A falling edge of CLK, at which DOUT changes (R217). -/
def State.fallingEdge (s : State) (d : SelPeriod) : State := s.withPeriod { d.showBit with clk := false }

/-- The port finds levels of CLK and DIN: an edge of CLK when its level is not the one before, and nothing else. Outside a SEL
period CLK and DIN are ignored (R217). -/
def State.clock (s : State) (x : LinkLevels) : State :=
  match s.port.period with
  | none => s
  | some d =>
    match d.clk, x.clk with
    | false, true => s.risingEdge d x.din
    | true, false => s.fallingEdge d
    | false, false | true, true => s

/-- ANSWER_READ (R220): levels of CLK and DIN in a SEL period (log entry 6). -/
def execAnswerRead (s : State) (link : List LinkLevels := []) : Result := .next (link.foldl State.clock s.settled)

end Sys2Proof.Machine
end

