-- ==== Sys2Proof/Machine/InputEvents.lean ====
section
/-! DEFINITION. The inputs of a slot: converter scans, latches and the heartbeat (R24, R25, R135 to R141, R148 to R150,
R194). -/

namespace Sys2Proof.Machine

/-- A scan in RISING, GOOD or SAG; overcurrent is judged before the level (R138 to R141). -/
def Rack.scan (st : Store) (r : Rack) (k : SlotIx) (microvolts : Nat) (overcurrent : Bool) : Rack :=
  let l := (r.slot k).rail
  let level := railLevel l.margin microvolts
  match l.state with
  | .off | .tripped => r
  | .rising =>
    if overcurrent then r.trip st k .trip else if 950 ≤ level then r.railGood st k else r
  | .good =>
    if overcurrent then r.trip st k .trip else if level < 920 then r.railSag st k else r
  | .sag =>
    if overcurrent then r.trip st k .trip
    else if 950 ≤ level then r.railGood st k
    else if level < 850 then r.trip st k .trip
    else r

/-- An event of a slot input: it is ignored for a slot not in use (R1). -/
def Rack.onInput (r : Rack) (k : SlotIx) (event : Rack → Rack) : Rack := if r.inUse k then event r else r

/-- RAIL_SCAN (R135). -/
def execRailScan (slot : SlotIx) (microvolts : Nat) (overcurrent : Bool) (s : State) : Result :=
  .next (s.onRack fun st r => r.onInput slot fun r => r.scan st slot microvolts overcurrent)

/-- The debounced latch state becomes OPEN: a pull of a case in a run, and a notice in every state (R24, R149). -/
def Rack.openLatch (st : Store) (r : Rack) (k : SlotIx) : Rack :=
  let r := (r.modSlot k fun sl => { sl with latchClosed := false }).noticeSlot k
  if (r.slot k).inRun then (r.endRun st k .pulled).proceed st k else r

/-- The debounced latch state becomes CLOSED: a seat of a PULLED case, which begins a new stay at its position in READY,
and a notice in every state (R25, R93, R149). -/
def Rack.closeLatch (st : Store) (r : Rack) (k : SlotIx) : Rack :=
  let r := (r.modSlot k fun sl => { sl with latchClosed := true }).noticeSlot k
  if (r.slot k).caseState = some .pulled then (r.beginStay st k (r.slot k).stay.position).enter k .ready else r

/-- A millisecond sample of LTn, which reads low (`closed`) under a closed clamp: the sample that makes twenty in a row
disagree with the debounced state changes it in its own action (R148). -/
def Rack.sampleLatch (st : Store) (r : Rack) (k : SlotIx) (closed : Bool) : Rack :=
  let before := (r.slot k).latchClosed
  let (after, count) := debounce Config.latchSamples before (r.slot k).latchCount closed
  let r := r.modSlot k fun sl => { sl with latchCount := count }
  if after = before then r else if after then r.closeLatch st k else r.openLatch st k

/-- LATCH_OPEN (R24): one sample of LTn high (log entry 15). -/
def execLatchOpen (slot : SlotIx) (s : State) : Result :=
  .next (s.onRack fun st r => r.onInput slot fun r => r.sampleLatch st slot false)

/-- LATCH_CLOSE (R25): one sample of LTn low (log entry 15). -/
def execLatchClose (slot : SlotIx) (s : State) : Result :=
  .next (s.onRack fun st r => r.onInput slot fun r => r.sampleLatch st slot true)

/-- A sample of HBn: the first one only sets the last sample, and an edge sets an armed beat counter to 0 (R194). -/
def Watch.sample (level : Bool) (w : Watch) : Watch :=
  match w.lastSample with
  | none => { w with lastSample := some level }
  | some last =>
    if last = level then w else { w with lastSample := some level, beat := w.beat.map fun _ => 0 }

/-- HEARTBEAT_EDGE (R194). -/
def execHeartbeatEdge (slot : SlotIx) (level : Bool) (s : State) : Result :=
  .next (s.onRack fun _ r => r.onInput slot fun r => r.modWatch slot (Watch.sample level))

end Sys2Proof.Machine
end

