-- ==== Sys2Proof/Machine/LineEvents.lean ====
section
/-! DEFINITION. The sense line: its characters, the level the part puts on it and the receiver; its events: echoes, returned
bytes, timeouts, BREAK and SETTLE (R154 to R167, R171, R174). -/

namespace Sys2Proof.Machine

/-- The parity bit of a character: the count of high bits among the data bits and the parity bit is even (R154). -/
def evenParity (b : Byte) : Bool :=
  b.getLsbD 0 ^^ b.getLsbD 1 ^^ b.getLsbD 2 ^^ b.getLsbD 3 ^^ b.getLsbD 4 ^^ b.getLsbD 5 ^^ b.getLsbD 6 ^^ b.getLsbD 7

/-- The eleven bits of a character in the order sent: a low start bit, the data with the least significant bit first, the
parity bit, a high stop bit (R154). -/
def charBits (b : Byte) : List Bool :=
  [false, b.getLsbD 0, b.getLsbD 1, b.getLsbD 2, b.getLsbD 3, b.getLsbD 4, b.getLsbD 5, b.getLsbD 6, b.getLsbD 7,
    evenParity b, true]

/-- The character that an exchange sent last on its attempt; none before the first (R153, R157). -/
def Exchange.lastSent (x : Exchange) : Option Byte := if x.sent = 0 then none else x.probe.chars[x.sent - 1]?

/-- The part drives SNSn low in the bit time `i`, counted from the start of the character or BREAK under way: at the low bits
of a character in SEND and for 22 bit times in BREAK; it releases the line everywhere else, and after an abort (R153, R154,
R166, R168). The bit clock is not counted in State (log entry 29). -/
def Line.drivesLow (l : Line) (i : Nat) : Bool :=
  match l.state with
  | .send => ((l.exchange.bind Exchange.lastSent).bind fun b => (charBits b)[i]?) == some false
  | .breaking => i < 22
  | .idle | .reply | .settle | .passed => false

/-- The level of SNSn: open drain, low where the part or what is joined to the line drives it low and pulled high otherwise
(R154). -/
def Line.level (l : Line) (i : Nat) (outsideLow : Bool) : Bool := !(l.drivesLow i || outsideLow)

/-- The slot whose SNSn the pass switch joins BSNS to: the granted one, and none while the switch is open (R169, R204). -/
def Rack.passSwitch (r : Rack) : Option SlotIx :=
  match r.bench.state with
  | .granted k => some k
  | .idle | .pending _ => none

/-- The level of SNSn of a slot whose board, and a station at BSNS, drive low or release: the station reaches the line through
the pass switch alone (R154, R169, R204). -/
def Rack.snsLevel (r : Rack) (k : SlotIx) (i : Nat) (boardLow stationLow : Bool) : Bool :=
  (r.slot k).line.level i (boardLow || (r.passSwitch == some k && stationLow))

/-- The level that the part's side gives BSNS: that of the joined line, where it has one, and none while the switch is open
and BSNS unconnected (R203, R204). -/
def Rack.bsnsLevel (r : Rack) (i : Nat) (boardLow : SlotIx → Bool) (stationLow : Bool) : Option Bool :=
  r.passSwitch.map fun k => r.snsLevel k i (boardLow k) stationLow

/-- The character of the ten samples that follow the start bit: the data, the least significant bit first, the parity bit and
the stop bit; none before the stop bit is sampled (R155). -/
def charOfSamples : List Bool → Option LineChar
  | b0 :: b1 :: b2 :: b3 :: b4 :: b5 :: b6 :: b7 :: parity :: stop :: _ =>
    some ⟨BitVec.ofBoolListLE [b0, b1, b2, b3, b4, b5, b6, b7], parity, stop⟩
  | _ => none

/-- The first whole character in the receiver's looks at the line. It waits for a fall from high to low; a high line at the
middle of the start bit was a glitch, and it waits on; otherwise ten samples follow (R155). -/
def receive : List Bool → Option LineChar
  | [] => none
  | level :: looks =>
    match level, looks with
    | true, false :: false :: samples => charOfSamples samples
    | _, _ => receive looks

/-- What a row of the line does with its looks: `event` for the whole character in them, and nothing while none is whole
(R155, log entry 35). -/
def Rack.onChar (r : Rack) (looks : List Bool) (event : LineChar → Rack) : Rack :=
  match receive looks with
  | none => r
  | some char => event char

/-- A whole character with neither a parity fault nor a framing fault (R155). -/
def LineChar.clean (c : LineChar) : Bool := c.parity == evenParity c.data && c.stop

/-- A whole character is the good echo of a byte: data and parity bit identical and stop bit high (R156). -/
def LineChar.echoes (c : LineChar) (sent : Byte) : Bool := c.data == sent && LineChar.clean c

/-- What an event does to the exchange of a slot whose line is in a given state; in any other line state it is not taken
(R174). -/
def Rack.inLine (r : Rack) (k : SlotIx) (state : LineState) (event : Exchange → Rack) : Rack :=
  if (r.slot k).line.state = state then
    match (r.slot k).line.exchange with
    | none => r
    | some x => event x
  else r

/-- The exchange in flight becomes `x`. -/
def Line.setExchange (x : Exchange) (l : Line) : Line := { l with exchange := some x }

/-- One character time has passed since the last end: a first character that waited is sent (R157). -/
def Rack.spacingEnd (r : Rack) (k : SlotIx) : Rack :=
  let r := r.modLine k fun l => { l with lastEnd := if l.lastEnd = .within then .passed else l.lastEnd }
  r.inLine k .send fun x => if x.sent = 0 then r.modLine k (Line.setExchange { x with sent := 1 }) else r

/-- EXCHANGE_SPACING_END (R157). -/
def execExchangeSpacingEnd (slot : SlotIx) (s : State) : Result := .next (s.onRack fun _ r => r.spacingEnd slot)

/-- A good echo of the last character sent: the next character, REPLY, or the exchange OK (R156, R157, R174). -/
def Rack.goodEcho (st : Store) (r : Rack) (k : SlotIx) (x : Exchange) : Rack :=
  if x.sent < x.probe.chars.length then r.modLine k (Line.setExchange { x with sent := x.sent + 1 })
  else if x.probe.replies = 0 then r.exchangeOk st k x
  else r.modLine k fun l => { l with state := .reply }

/-- A whole character in SEND is the echo of the last character sent, good or NOECHO (R156). Before the first character
is sent no echo is awaited (log entry 11). -/
def Rack.echo (st : Store) (r : Rack) (k : SlotIx) (char : LineChar) : Rack :=
  r.inLine k .send fun x =>
    match x.lastSent with
    | none => r
    | some sent => if LineChar.echoes char sent then r.goodEcho st k x else r.failAttempt st k x .noecho

/-- ECHO_RECEIVED (R156). -/
def execEchoReceived (slot : SlotIx) (looks : List Bool) (s : State) : Result :=
  .next (s.onRack fun st r => r.onChar looks (r.echo st slot))

/-- No whole echo within 2 character times: NOECHO (R156). -/
def Rack.echoTimeout (st : Store) (r : Rack) (k : SlotIx) : Rack :=
  r.inLine k .send fun x => if x.sent = 0 then r else r.failAttempt st k x .noecho

/-- ECHO_TIMEOUT (R156). -/
def execEchoTimeout (slot : SlotIx) (s : State) : Result := .next (s.onRack fun st r => r.echoTimeout st slot)

/-- A returned byte with good parity and stop bit is taken: the exchange is OK, or the second byte of a HAIL is awaited
(R159, R163). -/
def Rack.takeReply (st : Store) (r : Rack) (k : SlotIx) (x : Exchange) (b : Byte) : Rack :=
  let x := { x with returned := x.returned ++ [b] }
  if x.returned.length < x.probe.replies then r.modLine k (Line.setExchange x) else r.exchangeOk st k x

/-- A whole character in REPLY is the returned byte; a parity or framing fault fails the attempt with PARITY (R163). -/
def Rack.reply (st : Store) (r : Rack) (k : SlotIx) (char : LineChar) : Rack :=
  r.inLine k .reply fun x =>
    if LineChar.clean char then r.takeReply st k x char.data else r.failAttempt st k x .parity

/-- REPLY_BYTE_RECEIVED (R163). -/
def execReplyByteReceived (slot : SlotIx) (looks : List Bool) (s : State) : Result :=
  .next (s.onRack fun st r => r.onChar looks (r.reply st slot))

/-- The reply timeout runs out: SILENT (R163). -/
def Rack.replyTimeout (st : Store) (r : Rack) (k : SlotIx) : Rack :=
  r.inLine k .reply fun x => r.failAttempt st k x .silent

/-- REPLY_TIMEOUT (R163). -/
def execReplyTimeout (slot : SlotIx) (s : State) : Result := .next (s.onRack fun st r => r.replyTimeout st slot)

/-- STRAY_CHARACTER (R171): in IDLE, BREAK, SETTLE and PASSED it is discarded and has no effect (R155); in SEND and REPLY
a character is an echo or a returned byte, which have their own rows. -/
def execStrayCharacter (_slot : SlotIx) (_looks : List Bool) (s : State) : Result := .next s.settled

/-- The BREAK has lasted 2 character times: SETTLE (R166). -/
def Rack.breakEnd (r : Rack) (k : SlotIx) : Rack :=
  r.inLine k .breaking fun _ => r.modLine k fun l => { l with state := .settle }

/-- BREAK_END (R166). -/
def execBreakEnd (slot : SlotIx) (s : State) : Result := .next (s.onRack fun _ r => r.breakEnd slot)

/-- The next attempt of an exchange, in SEND with its first character sent (R166, R167). -/
def Exchange.nextAttempt (x : Exchange) : Exchange :=
  { x with probe := x.probe.retry, attempt := x.attempt + 1, sent := 1, returned := [] }

/-- The SETTLE has lasted 1 character time: the next attempt while the model's retries allow one, else the exchange ends
with its failed result (R166). -/
def Rack.settleEnd (st : Store) (r : Rack) (k : SlotIx) : Rack :=
  r.inLine k .settle fun x =>
    if x.retryFollows (r.model st k).header.retries then
      r.modLine k fun l => Line.setExchange x.nextAttempt { l with state := .send }
    else r.exchangeFailed st k

/-- SETTLE_END (R166). -/
def execSettleEnd (slot : SlotIx) (s : State) : Result := .next (s.onRack fun st r => r.settleEnd st slot)

end Sys2Proof.Machine
end

