-- ==== Sys2Proof/Machine/StoreEvents.lean ====
section
/-! DEFINITION. The ends of the store's own work: the start-up check, programming, the lock write and the store clear (R83, R85,
R87, R89). -/

namespace Sys2Proof.Machine

/-- The state the start-up check gives a model slot, from its marks and the check of its record (R89). -/
def ModelSlot.checkedState (badRecord : Bool) (slot : ModelSlot) : ModelSlotState :=
  match slot.progress with
  | .absent => .blank
  | .begun => .damaged
  | .complete => if badRecord then .damaged else if slot.lockMark then .locked else .valid

/-- The eight model slots. -/
def allModels : List ModelIx := [0, 1, 2, 3, 4, 5, 6, 7]

/-- One slot is checked (R89). -/
def Store.checkSlot (bad : List ModelIx) (st : Store) (m : ModelIx) : Store :=
  st.setSlot m { st.slots[m] with state := (st.slots[m]).checkedState (bad.contains m) }

/-- The start-up check ends: the slots have their states and the rack is UNSET (R89, R228). It runs only in STARTING. -/
def State.startupCheckEnd (s : State) (bad : List ModelIx) : State :=
  if s.port.rackState = .starting then
    { s with store := allModels.foldl (Store.checkSlot bad) s.store, port := { s.port with rackState := .unset } }
  else s

/-- STARTUP_CHECK_END (R89). -/
def execStartupCheckEnd (badRecords : List ModelIx) (s : State) : Result :=
  .next (s.settled.startupCheckEnd badRecords)

/-- A model slot changes. -/
def Store.modSlot (st : Store) (m : ModelIx) (f : ModelSlot → ModelSlot) : Store := st.setSlot m (f st.slots[m])

/-- No store write is in progress any more (R84). -/
def Store.endWrite (st : Store) : Store := { st with write := none }

/-- The slot and the flag that the end of programming gives (R83). -/
def State.programmingEnd (s : State) (good : Bool) : State :=
  match s.store.write with
  | some (.programming m) =>
    let written := s.store.modSlot m fun slot =>
      if good then { slot with state := .valid, progress := .complete, lockMark := false }
      else { slot with state := .damaged, progress := .begun }
    { s with store := written.endWrite, rack := s.rack.noticeFlag (if good then .storeDone else .storeFailed) }
  | some (.lockMark _) | some (.clear _ _) | none => s

/-- PROGRAMMING_END (R83). -/
def execProgrammingEnd (readBackGood : Bool) (s : State) : Result := .next (s.settled.programmingEnd readBackGood)

/-- The lock mark is complete and the write ends (R85). -/
def State.lockWriteEnd (s : State) : State :=
  match s.store.write with
  | some (.lockMark m) =>
    s.withStore (s.store.modSlot m fun slot => { slot with lockMark := true }).endWrite
  | some (.programming _) | some (.clear _ _) | none => s

/-- LOCK_WRITE_END (R85). -/
def execLockWriteEnd (s : State) : Result := .next s.settled.lockWriteEnd

/-- The clear erases the marks of its slot, which is BLANK from this action (R87). -/
def State.clearErase (s : State) : State :=
  match s.store.write with
  | some (.clear m false) =>
    let erased := s.store.modSlot m fun slot => { slot with state := .blank, progress := .absent, lockMark := false }
    s.withStore { erased with write := some (.clear m true) }
  | some (.clear _ true) | some (.programming _) | some (.lockMark _) | none => s

/-- STORE_CLEAR_SLOT_ERASE (R87). -/
def execStoreClearSlotErase (s : State) : Result := .next s.settled.clearErase

/-- The model slot after this one, none after slot 8. -/
def nextModel (m : ModelIx) : Option ModelIx := if h : m.val + 1 < 8 then some ⟨m.val + 1, h⟩ else none

/-- Every model slot is BLANK (R87). -/
def Store.allBlank (st : Store) : Bool := allModels.all fun m => (st.slots[m]).state == .blank

/-- The clear goes on to the next slot, or ends with its flag after slot 8 (R87). -/
def State.clearNext (s : State) (m : ModelIx) : State :=
  match nextModel m with
  | some n => s.withStore { s.store with write := some (.clear n false) }
  | none =>
    { s with store := s.store.endWrite
             rack := s.rack.noticeFlag (if s.store.allBlank then .storeDone else .storeFailed) }

/-- The clear erases the record area and checks the slot, which is DAMAGED when it does not read as erased (R87); the mark
of such a slot is one that the start-up check finds DAMAGED again (log entry 12). -/
def State.clearCheck (s : State) (readsErased : Bool) : State :=
  match s.store.write with
  | some (.clear m true) =>
    let checked := s.store.modSlot m fun slot =>
      if readsErased then { slot with model := none }
      else { slot with state := .damaged, progress := .begun, model := none }
    (s.withStore checked).clearNext m
  | some (.clear _ false) | some (.programming _) | some (.lockMark _) | none => s

/-- STORE_CLEAR_SLOT_CHECK (R87). -/
def execStoreClearSlotCheck (readsErased : Bool) (s : State) : Result := .next (s.settled.clearCheck readsErased)

end Sys2Proof.Machine
end

