-- ==== Sys2Proof/Machine/TickEvents.lean ====
section
/-! DEFINITION. The rack tick and the expiries it makes due (R95, R96, R106, R138, R140, R147, R189, R195 to R199). -/

namespace Sys2Proof.Machine

/-- The slot is not granted to the bench and the rack is ACTIVE: what every frozen count needs (R95, R106, R195, R198). -/
def Rack.moving (r : Rack) (k : SlotIx) : Bool := !r.isGranted k && r.quiesce == .active

/-- The alternation counter counts at a tick of a RUNNING case, draining or not, when the half-period is not 0 (R106). -/
def tickAlternation (halfPeriod : Nat) (y : Stay) : Stay :=
  if halfPeriod = 0 then y else { y with alternation := y.alternation + 1 }

/-- A tick at a RUNNING case that is not frozen: the stage timer and the stress total count unless the case is draining
(R95, R8), and the alternation counter (R106). -/
def CaseRecord.tick (halfPeriod : Nat) (c : CaseRecord) : CaseRecord :=
  if c.stay.draining then { c with stay := tickAlternation halfPeriod c.stay }
  else
    { c with stay := tickAlternation halfPeriod { c.stay with elapsed := c.stay.elapsed + 1 }
             stress := bump Config.max32 c.stress }

/-- A tick at a rail: the rise counter in RISING (R138), the sag counter in SAG (R140), and the rest counter of a RESTING
case in an ACTIVE rack (R147). -/
def Rail.tick (resting : Bool) (l : Rail) : Rail :=
  { l with rise := if l.state = .rising then l.rise + 1 else l.rise
           sag := if l.state = .sag then l.sag + 1 else l.sag
           rest := if resting then l.rest.map (· + 1) else l.rest }

/-- The states of a case in which an armed beat counter counts (R198); a WAITING case with an armed counter has its rail
on. -/
def CaseState.beats : CaseState → Bool
  | .running | .paused | .waiting => true
  | .ready | .powering | .resting | .faulted _ | .pulled | .done _ _ => false

/-- A tick at a watch: an armed boot counter in POWERING (R195), an armed beat counter in the states of R198. -/
def Watch.tick (booting beating : Bool) (w : Watch) : Watch :=
  { w with boot := if booting then w.boot.map (· + 1) else w.boot
           beat := if beating then w.beat.map (· + 1) else w.beat }

/-- A tick at a sequencer: a tick wait has seen its tick (R189). DESIGN CHOICE (log entry 33): a tick that comes while the slot
is granted to the bench, or in a held rack, ends the wait too. -/
def Sequencer.tick (q : Sequencer) : Sequencer := if q.tickWait then { q with waitTickSeen := true } else q

/-- What one rack tick does to the blocks of a slot, each count by its own conditions. DESIGN CHOICE (log entry 32): every
counter counts before any expiry of the tick is taken, so a rail or alternation counter that another expiry of the same tick
sets to 0 is 0 after it. -/
def Rack.tickSlot (st : Store) (r : Rack) (k : SlotIx) : Slot :=
  let sl := r.slot k
  let cs := sl.caseState
  { sl with
    record := if cs = some .running ∧ r.moving k then sl.record.map (CaseRecord.tick (r.stage st k).halfPeriod)
      else sl.record
    rail := sl.rail.tick (cs == some .resting && r.quiesce == .active)
    seq := sl.seq.tick
    watch := sl.watch.tick (cs == some .powering && r.moving k) (cs.any CaseState.beats && r.moving k) }

/-- A rack tick reaches every slot. -/
def Rack.tick (st : Store) (r : Rack) : Rack := allSlots.foldl (fun r' k => r'.setSlot k (r.tickSlot st k)) r

/-- A rack tick; none reaches the blocks of a rack that is not SET (R95, R228). -/
def State.tick (s : State) : State :=
  if s.port.rackState = .set then { s with rack := s.rack.tick s.store } else s

/-- RACK_TICK (R95). -/
def execRackTick (s : State) : Result := .next s.settled.tick

/-- The row of an expiry: it is taken when it is due. -/
def State.onExpiry (s : State) (k : SlotIx) (e : Expiry) : State :=
  { s with rack := s.rack.takeExpiry s.store k e }

/-- STAGE_TIMER_MATCH (R96). -/
def execStageTimerMatch (slot : SlotIx) (s : State) : Result := .next (s.onExpiry slot .stageMatch)

/-- HEATER_SWITCH (R106). -/
def execHeaterSwitch (slot : SlotIx) (s : State) : Result := .next (s.onExpiry slot .heaterSwitch)

/-- RISE_ALLOWANCE_EXPIRY (R138). -/
def execRiseAllowanceExpiry (slot : SlotIx) (s : State) : Result := .next (s.onExpiry slot .rise)

/-- SAG_ALLOWANCE_EXPIRY (R140). -/
def execSagAllowanceExpiry (slot : SlotIx) (s : State) : Result := .next (s.onExpiry slot .sag)

/-- REST_END (R147). -/
def execRestEnd (slot : SlotIx) (s : State) : Result := .next (s.onExpiry slot .rest)

/-- BOOT_FAILURE (R196). -/
def execBootFailure (slot : SlotIx) (s : State) : Result := .next (s.onExpiry slot .boot)

/-- HANG (R199). -/
def execHang (slot : SlotIx) (s : State) : Result := .next (s.onExpiry slot .hang)

/-- HAIL_TICK_WAIT_END (R189). -/
def execHailTickWaitEnd (slot : SlotIx) (s : State) : Result := .next (s.onExpiry slot .tickWait)

end Sys2Proof.Machine
end

