-- ==== Sys2Proof/Machine/Dispatch.lean ====
section
/-! DEFINITION. One arm for each command: the meaning it has. -/

namespace Sys2Proof.Machine

def exec (i : Instr) (s : State) : Host.Outcome State Fault Refusal :=
  match i with
  | .caseOpen args => Sys2Proof.Machine.execCaseOpen args s
  | .caseStart args => Sys2Proof.Machine.execCaseStart args s
  | .casePause args => Sys2Proof.Machine.execCasePause args s
  | .caseResume args => Sys2Proof.Machine.execCaseResume args s
  | .caseStop args => Sys2Proof.Machine.execCaseStop args s
  | .caseClose args => Sys2Proof.Machine.execCaseClose args s
  | .caseLook args => Sys2Proof.Machine.execCaseLook args s
  | .caseFind args => Sys2Proof.Machine.execCaseFind args s
  | .caseAmend args => Sys2Proof.Machine.execCaseAmend args s
  | .suspectList args => Sys2Proof.Machine.execSuspectList args s
  | .suspectNoteFail args => Sys2Proof.Machine.execSuspectNoteFail args s
  | .suspectNoteConfirm args => Sys2Proof.Machine.execSuspectNoteConfirm args s
  | .suspectNoteClear args => Sys2Proof.Machine.execSuspectNoteClear args s
  | .suspectSweep args => Sys2Proof.Machine.execSuspectSweep args s
  | .rework args => Sys2Proof.Machine.execRework args s
  | .modelBegin args => Sys2Proof.Machine.execModelBegin args s
  | .modelAddComponent args => Sys2Proof.Machine.execModelAddComponent args s
  | .modelAddStage args => Sys2Proof.Machine.execModelAddStage args s
  | .modelAddStep args => Sys2Proof.Machine.execModelAddStep args s
  | .modelCommit args => Sys2Proof.Machine.execModelCommit args s
  | .modelDiscard args => Sys2Proof.Machine.execModelDiscard args s
  | .modelRead args => Sys2Proof.Machine.execModelRead args s
  | .modelLock args => Sys2Proof.Machine.execModelLock args s
  | .storeClear args => Sys2Proof.Machine.execStoreClear args s
  | .heaterTrim args => Sys2Proof.Machine.execHeaterTrim args s
  | .rackQuiesce args => Sys2Proof.Machine.execRackQuiesce args s
  | .rackWake args => Sys2Proof.Machine.execRackWake args s
  | .budgetLook args => Sys2Proof.Machine.execBudgetLook args s
  | .rackSetup args => Sys2Proof.Machine.execRackSetup args s
  | .rackStatus args => Sys2Proof.Machine.execRackStatus args s
  | .rackRestart args => Sys2Proof.Machine.execRackRestart args s
  | .notices args => Sys2Proof.Machine.execNotices args s
  | .unknownRequest code => Sys2Proof.Machine.execUnknownRequest code s
  | .badFrame fault => Sys2Proof.Machine.execBadFrame fault s
  | .frameCollision => Sys2Proof.Machine.execFrameCollision s
  | .selFall => Sys2Proof.Machine.execSelFall s
  | .selRise => Sys2Proof.Machine.execSelRise s
  | .answerRead link => Sys2Proof.Machine.execAnswerRead s link
  | .hardReset widthHigh => Sys2Proof.Machine.execHardReset widthHigh s
  | .startupCheckEnd badRecords => Sys2Proof.Machine.execStartupCheckEnd badRecords s
  | .programmingEnd readBackGood => Sys2Proof.Machine.execProgrammingEnd readBackGood s
  | .lockWriteEnd => Sys2Proof.Machine.execLockWriteEnd s
  | .storeClearSlotErase => Sys2Proof.Machine.execStoreClearSlotErase s
  | .storeClearSlotCheck readsErased => Sys2Proof.Machine.execStoreClearSlotCheck readsErased s
  | .rackTick => Sys2Proof.Machine.execRackTick s
  | .stageTimerMatch slot => Sys2Proof.Machine.execStageTimerMatch slot s
  | .heaterSwitch slot => Sys2Proof.Machine.execHeaterSwitch slot s
  | .riseAllowanceExpiry slot => Sys2Proof.Machine.execRiseAllowanceExpiry slot s
  | .sagAllowanceExpiry slot => Sys2Proof.Machine.execSagAllowanceExpiry slot s
  | .restEnd slot => Sys2Proof.Machine.execRestEnd slot s
  | .bootFailure slot => Sys2Proof.Machine.execBootFailure slot s
  | .hang slot => Sys2Proof.Machine.execHang slot s
  | .hailTickWaitEnd slot => Sys2Proof.Machine.execHailTickWaitEnd slot s
  | .railScan slot microvolts overcurrent => Sys2Proof.Machine.execRailScan slot microvolts overcurrent s
  | .latchOpen slot => Sys2Proof.Machine.execLatchOpen slot s
  | .latchClose slot => Sys2Proof.Machine.execLatchClose slot s
  | .heartbeatEdge slot level => Sys2Proof.Machine.execHeartbeatEdge slot level s
  | .benchHold bsel => Sys2Proof.Machine.execBenchHold bsel s
  | .benchSeize bsel bhold => Sys2Proof.Machine.execBenchSeize bsel s bhold
  | .holdWithdrawal bsel => Sys2Proof.Machine.execHoldWithdrawal s bsel
  | .benchRelease bsel => Sys2Proof.Machine.execBenchRelease s bsel
  | .exchangeSpacingEnd slot => Sys2Proof.Machine.execExchangeSpacingEnd slot s
  | .echoReceived slot looks => Sys2Proof.Machine.execEchoReceived slot looks s
  | .echoTimeout slot => Sys2Proof.Machine.execEchoTimeout slot s
  | .replyByteReceived slot looks => Sys2Proof.Machine.execReplyByteReceived slot looks s
  | .replyTimeout slot => Sys2Proof.Machine.execReplyTimeout slot s
  | .strayCharacter slot looks => Sys2Proof.Machine.execStrayCharacter slot looks s
  | .breakEnd slot => Sys2Proof.Machine.execBreakEnd slot s
  | .settleEnd slot => Sys2Proof.Machine.execSettleEnd slot s

end Sys2Proof.Machine
end

