-- ==== Sys2Proof/Machine/Step.lean ====
section
/-! DEFINITION. One step: the command at the front of the queue. -/

namespace Sys2Proof.Machine

/-- The state with its queue of waiting commands replaced. -/
def State.withPending (s : State) (commands : List Instr) : State := { s with pending := commands }

/-- One step. With commands waiting, the one at the front is run on the state with the rest of the queue; with none the
part idles (log entry 16). -/
def step (s : State) : Host.Outcome State Fault Refusal :=
  match s.pending with
  | [] => .next s
  | c :: rest => exec c (s.withPending rest)

/-- The state with the command that a word spells at the front of its queue; no row of the table has a word. -/
def State.withFetchWord (s : State) (nbits w : Nat) : State :=
  match decodeTableWord nbits w with
  | none => s
  | some c => s.withPending (c :: s.pending)

end Sys2Proof.Machine
end

