-- ==== Sys2Proof/Safety.lean ====
section
/-! DEFINITION. What the statements about this part speak of: the states in which a request is taken, the shape of its
outcome, and the invariants that every step keeps. -/

namespace Sys2Proof.Machine

/-! ## When a command meets nothing else -/

/-- No expiry of the last rack tick is waiting for its row (log entry 3). -/
abbrev State.quiet (s : State) : Prop := s.rack.dueList s.store = []

/-- A frame that completes now meets no pending answer and no waiting expiry (R217, R219). -/
abbrev State.listening (s : State) : Prop := s.quiet ∧ s.port.assembling = true ∧ s.port.answer = none

/-- A request that completes now reaches its owner: the rack is SET (R223, R228). -/
abbrev State.takesRequests (s : State) : Prop := s.listening ∧ s.port.rackState = .set

/-- The frame of the period is complete and an answer is pending (R217, R219). -/
def State.answered (s : State) (status : Status) (body : List Byte) : State :=
  { s with port := { s.port.complete with answer := some ⟨status, body⟩ } }

/-! ## The rows that are frames (R219) -/

/-- The rack states that the port lets the request of a row through, for the request rows (R223). -/
def gateOf : Instr → Option Gate
  | .caseOpen _ | .caseStart _ | .casePause _ | .caseResume _ | .caseStop _ | .caseClose _ | .caseLook _
  | .caseFind _ | .caseAmend _ | .suspectList _ | .suspectNoteFail _ | .suspectNoteConfirm _ | .suspectNoteClear _
  | .suspectSweep _ | .rework _ | .modelBegin _ | .modelAddComponent _ | .modelAddStage _ | .modelAddStep _
  | .modelCommit _ | .modelDiscard _ | .modelRead _ | .modelLock _ | .storeClear _ | .heaterTrim _ | .rackQuiesce _
  | .rackWake _ | .budgetLook _ | .rackRestart _ | .unknownRequest _ => some .setOnly
  | .rackSetup _ | .notices _ => some .unsetOrSet
  | .rackStatus _ => some .always
  | .badFrame _ | .frameCollision | .selFall | .selRise | .answerRead _ | .hardReset _ | .startupCheckEnd _
  | .programmingEnd _ | .lockWriteEnd | .storeClearSlotErase | .storeClearSlotCheck _ | .rackTick
  | .stageTimerMatch _ | .heaterSwitch _ | .riseAllowanceExpiry _ | .sagAllowanceExpiry _ | .restEnd _
  | .bootFailure _ | .hang _ | .hailTickWaitEnd _ | .railScan _ _ _ | .latchOpen _ | .latchClose _
  | .heartbeatEdge _ _ | .benchHold _ | .benchSeize _ _ | .holdWithdrawal _ | .benchRelease _ | .exchangeSpacingEnd _
  | .echoReceived _ _ | .echoTimeout _ | .replyByteReceived _ _ | .replyTimeout _ | .strayCharacter _ _
  | .breakEnd _ | .settleEnd _ => none

/-- A request row whose body does not fit its arguments (R233). -/
def misfitBody : Instr → Bool
  | .caseOpen none | .caseStart none | .casePause none | .caseResume none | .caseStop none | .caseClose none
  | .caseLook none | .caseFind none | .caseAmend none | .suspectList none | .suspectNoteFail none
  | .suspectNoteConfirm none | .suspectNoteClear none | .suspectSweep none | .rework none | .modelBegin none
  | .modelAddComponent none | .modelAddStage none | .modelAddStep none | .modelCommit none | .modelDiscard none
  | .modelRead none | .modelLock none | .storeClear none | .heaterTrim none | .rackQuiesce none | .rackWake none
  | .budgetLook none | .rackRestart none | .rackSetup none | .notices none | .rackStatus none => true
  | _ => false

/-- The slot that BSEL reads and the levels of BHOLD and BSEIZE that a bench row samples (R203; log entry 24). -/
def benchRow : Instr → Option (SlotIx × Bool × Bool)
  | .benchHold bsel => some (bsel, true, false)
  | .benchSeize bsel bhold => some (bsel, bhold, true)
  | .holdWithdrawal bsel => some (bsel, false, false)
  | .benchRelease bsel => some (bsel, false, false)
  | _ => none

/-! ## Frames -/

/-- A change of one slot: nothing else of the rack but the notice set is different. -/
def Rack.onlySlot (k : SlotIx) (r r' : Rack) : Prop :=
  r'.wide = r.wide ∧ r'.budget = r.budget ∧ r'.queue = r.queue ∧ r'.quiesce = r.quiesce ∧ r'.bench = r.bench ∧
    ∀ j, j ≠ k → r'.slot j = r.slot j

/-- A change of one slot that may let waiting cases be granted and a pending HOLD be given: of the other slots only those
with a queue entry and the pending one may be different, and the queue only loses entries. -/
def Rack.slotAndGrants (k : SlotIx) (r r' : Rack) : Prop :=
  r'.wide = r.wide ∧ r'.budget = r.budget ∧ r'.queue.Sublist r.queue ∧
    ∀ j, j ≠ k → r.queued j = false → r.isPending j = false → r'.slot j = r.slot j

/-! ## Stage advances and pool entries -/

/-- A drain boundary stands in a slot, and its advance would be granted at once in an empty queue to the position `p`
(R96, R102, R103). -/
def Rack.advanceDue (st : Store) (r : Rack) (k : SlotIx) (c : CaseRecord) (p : Position) : Prop :=
  (r.slot k).record = some c ∧ c.stay.draining = true ∧ (r.slot k).seq.mode = .program ∧
    (r.slot k).atBoundary = true ∧ c.suspects = [] ∧ (caseModel st c).nextPosition c.stay.position = some p ∧
    r.queue = [] ∧
    (((caseModel st c).stage p.stage).units = 0 ∨ ((caseModel st c).stage p.stage).units ≤ (r.setUnits k 0).freeUnits)

/-- A watch whose beat counter has been armed with a window, at `start`, or disarmed by a window of 0 (R197). -/
def Watch.armedFrom (window start : Nat) (w w' : Watch) : Prop :=
  (window = 0 → w' = { w with beat := none }) ∧
    (window ≠ 0 → w' = { w with beat := some start, window := window })

/-- The slot stands after a granted advance to `p`: RUNNING in a new stay with its units and margin, at step 1, its beat
counter armed with the new window (R102, R103, R176, R197). -/
def Rack.advancedTo (st : Store) (r r' : Rack) (k : SlotIx) (c : CaseRecord) (p : Position) : Prop :=
  (r'.slot k).record =
      some { c with state := .running, stay := Stay.begin p ((caseModel st c).stage p.stage) } ∧
    (r'.slot k).units = ((caseModel st c).stage p.stage).units ∧
    (r'.slot k).rail = Rail.newMargin ((caseModel st c).stage p.stage).margin (r.slot k).rail ∧
    (r'.slot k).seq.mode = .program ∧ (r'.slot k).seq.step = 1 ∧ (r'.slot k).seq.index = 0 ∧
    Watch.armedFrom ((caseModel st c).stage p.stage).window 0 (r.slot k).watch (r'.slot k).watch

/-- `r'` is `r` with a pool entry for a new suspect of slot `k`'s case: a free one (R49), that of the case's own lowest-ranked
CLEARED or REWORKED suspect (R50), or that of the case with the most suspects among those that hold one, in the
lowest-numbered slot among equals, whose stamp moves (R51). -/
def Rack.entryFound (r r' : Rack) (k : SlotIx) : Prop :=
  (0 < r.freeEntries ∧ r' = r) ∨
  (r.freeEntries = 0 ∧ ∃ (l₁ l₂ : List Suspect) (y : Suspect), (r.slot k).suspects = l₁ ++ y :: l₂ ∧
    y.reclaimable = true ∧ (∀ x ∈ l₂, x.reclaimable = false) ∧ r' = r.setList k (l₁ ++ l₂)) ∨
  (r.freeEntries = 0 ∧ (∀ x ∈ (r.slot k).suspects, x.reclaimable = false) ∧
    ∃ (j : SlotIx) (l₁ l₂ : List Suspect) (y : Suspect), j ≠ k ∧ (r.slot j).suspects = l₁ ++ y :: l₂ ∧
      y.reclaimable = true ∧ (∀ x ∈ l₂, x.reclaimable = false) ∧
      (∀ i, i ≠ k → (∃ x ∈ (r.slot i).suspects, x.reclaimable = true) →
        (r.slot i).suspectCount < (r.slot j).suspectCount ∨
          (r.slot i).suspectCount = (r.slot j).suspectCount ∧ j ≤ i) ∧
      r' = (r.setList j (l₁ ++ l₂)).stamp j)

/-- No entry can be found for a new suspect (R52). -/
def Rack.poolExhausted (r : Rack) : Prop :=
  r.freeEntries = 0 ∧ ∀ j, ∀ x ∈ (r.slot j).suspects, x.reclaimable = false

/-- The cases of both racks have the same suspects, next serials, unplaced counts and pool-full flags: what lies between them
hands no evidence (R39, R52). -/
def Rack.samePool (r r' : Rack) : Prop :=
  ∀ j, (r'.slot j).record.map (fun c => (c.suspects, c.nextSerial, c.unplaced, c.poolFull)) =
    (r.slot j).record.map fun c => (c.suspects, c.nextSerial, c.unplaced, c.poolFull)

/-- `r'` is `r` after the stage-clean evidence of the stay that slot `k`'s case leaves: a PASS for the rail component when the
rail-clean mark is yes, then one for the hang component when the hang-clean mark is yes (R100). -/
def Rack.leavesStay (st : Store) (r r' : Rack) (k : SlotIx) (c : CaseRecord) : Prop :=
  ∃ r₁ : Rack,
    r₁ = (if c.stay.railClean = true then r.passItem st k (caseModel st c).header.rail else r) ∧
    r' = if c.stay.hangClean = true then r₁.passItem st k (caseModel st c).header.hang else r₁

/-! ## Invariants -/

/-- The collided mark is yes only while an answer is pending, and a collision of the present period shows in it; the read
position is within the frame on DOUT, the byte under way is not whole, DOUT carries the bit whose turn it is while CLK is
low, and the frame in is not complete (R216 to R218, R220, R222). -/
def Port.safe (p : Port) : Prop :=
  (p.collided = true → p.answer.isSome = true) ∧
    ∀ d, p.period = some d → (d.collided = true → p.collided = true) ∧ d.readPosition ≤ d.dout.length ∧
      d.bits.length < 8 ∧ (d.clk = false → d.doutBit = d.nextBit) ∧ ∀ received, d.frameIn = some received → judgeFrame received = .incomplete

/-- A staging record within the sizes of R75. -/
def Model.fitsStaging (m : Model) : Prop :=
  m.components.length ≤ 24 ∧ m.stages.length ≤ 8 ∧ ∀ p : Fin 4, m.programs[p].length ≤ 32

/-- The store: in STARTING no write is in progress and nothing is staged; after it a slot is PROGRAMMING exactly while its
programming is the store write in progress; the staging record fits (R73, R75, R84, R89). -/
def State.storeSafe (s : State) : Prop :=
  (s.port.rackState = .starting → s.store.write = none ∧ s.store.staging = none) ∧
  (s.port.rackState ≠ .starting →
    ∀ m : ModelIx, (s.store.slots[m]).state = .programming ↔ s.store.write = some (.programming m)) ∧
  ∀ m, s.store.staging = some m → m.fitsStaging

/-- With WIDTH low, slots 9 to 16 keep their values after reset, and neither the queue nor the bench names one (R1). -/
def Rack.widthSafe (r : Rack) : Prop :=
  r.wide = false →
    (∀ k : SlotIx, 8 ≤ k.val → r.slot k = Slot.reset) ∧ (∀ e ∈ r.queue, e.slot.val < 8) ∧
      ∀ k : SlotIx, r.bench.state = .pending k ∨ r.bench.state = .granted k → k.val < 8

/-- A slot's rail is on only while its case is POWERING, RUNNING, PAUSED or WAITING and its latch is CLOSED (R136), and a
case is in a run only under a CLOSED latch (R24). -/
def Slot.railSafe (sl : Slot) : Prop :=
  (sl.rail.state.isOn = true → sl.takesTrip = true ∧ sl.latchClosed = true) ∧
    (sl.inRun = true → sl.latchClosed = true)

/-- `Slot.railSafe` of every slot. -/
def Rack.railSafe (r : Rack) : Prop := ∀ k, (r.slot k).railSafe

/-- The states in which a case may have a queue entry (R121). -/
def Slot.mayQueue (sl : Slot) : Bool :=
  sl.caseState == some .waiting || sl.caseState == some .resting || sl.caseState == some .powering

/-- The held total is within the budget, units are held in a run alone, and the queue holds one entry a slot, for slots that
hold no units in the states that may queue, every RUSH entry ahead of every NORMAL one (R120, R121, R126). -/
def Rack.budgetSafe (r : Rack) : Prop :=
  r.heldTotal ≤ r.budgetUnits ∧ (∀ k, (r.slot k).units ≠ 0 → (r.slot k).inRun = true) ∧
  (∀ e ∈ r.queue, (r.slot e.slot).units = 0 ∧ (r.slot e.slot).mayQueue = true) ∧
  (r.queue.map (·.slot)).Nodup ∧
  r.queue.Pairwise fun x y => x.priority = .normal → y.priority = .normal

/-- The pool holds at most 192 suspects, every rank list is in rank order, and a case has at most one suspect for a component
(R34, R36, R38). -/
def Rack.poolSafe (r : Rack) : Prop :=
  r.usedEntries ≤ Config.poolSize ∧
  ∀ k, (r.slot k).suspects.Pairwise (fun x y => x.before y = true) ∧ ((r.slot k).suspects.map (·.component)).Nodup

/-- A line is in IDLE or PASSED exactly while no exchange is in flight, and in PASSED exactly while its slot is granted to
the bench (R153, R169, R204). -/
def Rack.lineSafe (r : Rack) : Prop :=
  ∀ k, ((r.slot k).line.exchange = none ↔ ((r.slot k).line.state = .idle ∨ (r.slot k).line.state = .passed)) ∧
    ((r.slot k).line.state = .passed ↔ r.isGranted k = true)

end Sys2Proof.Machine
end

