-- ==== Sys2Proof/Certificates/Slice0/Obligations.lean ====
section
/-! DEFINITION. The statements about this part. -/

open Sys2Proof Sys2Proof.Machine

/-! ## The step and the reset -/

def Obligations.StepTakesTheFrontCommand : Prop :=
  (∀ (s : State) (c : Instr) (rest : List Instr), s.pending = c :: rest → step s = exec c (s.withPending rest)) ∧
  ∀ s : State, s.pending = [] → step s = .next s

def Obligations.HardResetGivesTheResetValues : Prop :=
  ∀ (s : State) (wide : Bool), ∃ t : State,
    exec (.hardReset wide) s = .next t ∧
    t.rack.wide = wide ∧ t.rack.budget = none ∧ t.rack.queue = [] ∧ t.rack.quiesce = .active ∧
    t.rack.bench = ⟨.idle, false, 0, false, 0⟩ ∧ t.rack.passSwitch = none ∧
    t.rack.notices.slots = 0 ∧ t.rack.notices.flags = 0 ∧ t.caseCounter = 1 ∧
    (∀ k : SlotIx,
      (∀ i boardLow stationLow, t.rack.snsLevel k i boardLow stationLow = !boardLow) ∧
      (t.rack.slot k).record = none ∧ (t.rack.slot k).stamp = 0 ∧ (t.rack.slot k).units = 0 ∧
      (t.rack.slot k).rail = ⟨.off, .nominal, 0, 0, none⟩ ∧ (t.rack.slot k).line = ⟨.idle, none, 0, false, .absent⟩ ∧
      (t.rack.slot k).seq.mode = .off ∧ (t.rack.slot k).seq.step = 1 ∧ (t.rack.slot k).seq.index = 0 ∧
      (t.rack.slot k).seq.runStart = none ∧ (t.rack.slot k).seq.lastExchange = none ∧
      (t.rack.slot k).seq.tickWait = false ∧ (t.rack.slot k).watch = ⟨none, 1, none, none⟩ ∧
      (t.rack.slot k).latchClosed = false ∧ (t.rack.slot k).latchCount = 0 ∧ t.rack.heaterDuty k = 0) ∧
    t.port.rackState = .starting ∧ t.port.period = none ∧ t.port.answer = none ∧ t.port.collided = false ∧
    t.port.attention = false ∧ t.port.tick = none ∧ t.rdy = false ∧ t.atn = false ∧ t.port.doutLine = none ∧
    t.store.slots = s.store.slots ∧ t.store.staging = none ∧ t.store.write = none

def Obligations.ResetStateHasTheInvariants : Prop :=
  State.reset.port.safe ∧ State.reset.storeSafe ∧ State.reset.rack.widthSafe ∧ State.reset.rack.railSafe ∧
  State.reset.rack.budgetSafe ∧ State.reset.rack.poolSafe ∧ State.reset.rack.lineSafe

/-! ## Invariants that every step keeps -/

def Obligations.EveryStepKeepsPortAndStore : Prop :=
  (∀ s s' : State, s.port.safe → step s = .next s' → s'.port.safe) ∧
  (∀ s s' : State, s.storeSafe → step s = .next s' → s'.storeSafe)

def Obligations.EveryStepKeepsUnusedSlotsAtReset : Prop :=
  ∀ s s' : State, s.rack.widthSafe → step s = .next s' → s'.rack.widthSafe

def Obligations.EveryStepKeepsRailsUnderRunsAndLatches : Prop :=
  ∀ s s' : State, s.rack.railSafe → step s = .next s' → s'.rack.railSafe

def Obligations.EveryStepKeepsTheBudget : Prop :=
  ∀ s s' : State, s.rack.budgetSafe → step s = .next s' → s'.rack.budgetSafe

def Obligations.EveryStepKeepsThePoolInOrder : Prop :=
  ∀ s s' : State, s.rack.poolSafe → step s = .next s' → s'.rack.poolSafe

def Obligations.EveryStepKeepsTheLines : Prop :=
  ∀ s s' : State, s.rack.lineSafe → step s = .next s' → s'.rack.lineSafe

/-! ## The request port -/

def Obligations.FramesWithoutARequestAreAnswered : Prop :=
  (∀ (s : State) (f : FrameFault), s.listening →
    exec (.badFrame f) s = .next (s.answered .badFrame [])) ∧
  ∀ (s : State) (code : Byte), s.takesRequests → exec (.unknownRequest code) s = .next (s.answered .unknown [])

def Obligations.AFrameMeetingAnAnswerIsDiscarded : Prop :=
  ∀ (s : State) (c : Instr), s.quiet → s.port.assembling = true → s.port.answer.isSome = true →
    (gateOf c).isSome = true ∨ c = .frameCollision ∨ (∃ f, c = .badFrame f) →
    ∃ t : State, exec c s = .next t ∧ t.port.collided = true ∧ t.port.answer = s.port.answer ∧
      (∀ d, s.port.period = some d →
        t.port.period = some { d with frameIn := none, collided := d.collided || !s.port.collided }) ∧
      t.port.assembling = false ∧ t.port.rackState = s.port.rackState ∧ t.port.tick = s.port.tick ∧
      t.port.attention = s.port.attention ∧ t.rack = s.rack ∧ t.store = s.store ∧ t.caseCounter = s.caseCounter

def Obligations.ThePortAnswersBeforeTheOwner : Prop :=
  (∀ (s : State) (c : Instr) (g : Gate), s.listening → gateOf c = some g →
    (s.port.rackState = .starting → g ≠ .always → exec c s = .next (s.answered .starting [])) ∧
    (s.port.rackState = .unset → g = .setOnly → exec c s = .next (s.answered .notSetUp []))) ∧
  (∀ (s : State) (c : Instr), s.takesRequests → misfitBody c = true →
    exec c s = .next (s.answered .badArg [0, 0, 0]))

def Obligations.SelPeriodsShiftOutTheAnswer : Prop :=
  (∀ s : State, s.quiet → s.port.period = none →
    ∃ d : SelPeriod, exec .selFall s = .next (s.withPeriod d) ∧
      d.readPosition = 0 ∧ d.collided = false ∧ d.frameIn = some [] ∧ d.bits = [] ∧
      d.carriesAnswer = s.port.answer.isSome ∧ d.clk = false ∧ d.doutBit = d.nextBit ∧
      (s.port.answer = none → d.dout = frameBytes .none s.flagsByte []) ∧
      ∀ a, s.port.answer = some a → d.dout = frameBytes a.status s.flagsByte a.body) ∧
  (∀ s : State, s.quiet → exec .selRise s = .next { s with port := { s.port with period := none } }) ∧
  (∀ s : State, s.port.doutLine = s.port.period.map (·.doutBit)) ∧
  (∀ (s : State) (link : List LinkLevels), s.quiet → s.port.period = none → exec (.answerRead link) s = .next s) ∧
  (∀ (s t : State) (before after : List LinkLevels), s.quiet → exec (.answerRead before) s = .next t → t.quiet →
    exec (.answerRead (before ++ after)) s = exec (.answerRead after) t) ∧
  (∀ (s : State) (d : SelPeriod) (din : Bool) (bits : List Bool), s.quiet → s.port.period = some d →
    bits = d.bits ++ [din] →
    exec (.answerRead [⟨d.clk, din⟩]) s = .next s ∧
    (d.clk = true →
      exec (.answerRead [⟨false, din⟩]) s = .next (s.withPeriod { d with clk := false, doutBit := d.nextBit })) ∧
    (d.clk = false → d.bits.length < 7 →
      exec (.answerRead [⟨true, din⟩]) s = .next (s.withPeriod { d with clk := true, bits := bits })) ∧
    (d.clk = false → d.bits.length = 7 →
      ∃ (u : State) (e : SelPeriod), u.port.period = some e ∧
        e = { d with clk := true, bits := [], readPosition := min (d.readPosition + 1) d.dout.length } ∧
        (d.carriesAnswer = true → d.readPosition + 1 = d.dout.length → d.collided = false →
          u = { s with port := { s.port with period := some e, answer := none, collided := false } } ∧ u.rdy = false) ∧
        (d.carriesAnswer = false ∨ d.readPosition + 1 ≠ d.dout.length ∨ d.collided = true → u = s.withPeriod e) ∧
        (d.frameIn = none → exec (.answerRead [⟨true, din⟩]) s = .next u) ∧
        ∀ received, d.frameIn = some received →
          (∀ c, frameCommand (received ++ [byteOfBits bits]) = some c →
            exec (.answerRead [⟨true, din⟩]) s = exec c u) ∧
          (judgeFrame (received ++ [byteOfBits bits]) = .idle →
            exec (.answerRead [⟨true, din⟩]) s = .next (u.withPeriod { e with frameIn := none })) ∧
          (judgeFrame (received ++ [byteOfBits bits]) = .incomplete →
            exec (.answerRead [⟨true, din⟩]) s =
              .next (u.withPeriod { e with frameIn := some (received ++ [byteOfBits bits]) })))) ∧
  (∀ d : SelPeriod, d.bits.length < 8 →
    (∀ h : d.readPosition < d.dout.length, d.nextBit = d.dout[d.readPosition].getLsbD (7 - d.bits.length)) ∧
    (d.dout.length ≤ d.readPosition → d.nextBit = false)) ∧
  ∀ (bits : List Bool) (i : Nat) (h : i < bits.length), bits.length = 8 →
    (byteOfBits bits).getLsbD (7 - i) = bits[i]

def Obligations.NoticesAnswersAndEmptiesTheSet : Prop :=
  ∀ s : State, s.listening → s.port.rackState ≠ .starting →
    ∃ t : State, exec (.notices (some ⟨⟩)) s =
        .next (t.answered .done (bytes 2 s.rack.notices.slots.toNat ++ [byte s.rack.notices.flags.toNat])) ∧
      t = s.withRack { s.rack with notices := ⟨0, 0⟩ } ∧ t.atn = false

def Obligations.SetupAndStatusOfTheRack : Prop :=
  (∀ (s : State) (a : SetupArgs), s.listening → s.port.rackState ≠ .starting →
    (tickArg a.tick = none ∨ attentionArg a.attention = none ∨ a.budget.toNat = 0 ∨ 32 < a.budget.toNat →
      exec (.rackSetup (some a)) s = .next (s.answered .badArg [0, 0, 0])) ∧
    ∀ (tick : TickLength) (attention : Bool), tickArg a.tick = some tick → attentionArg a.attention = some attention →
      1 ≤ a.budget.toNat → a.budget.toNat ≤ 32 →
      ((∃ k, (s.rack.slot k).inRun = true) → s.port.tick ≠ some tick ∨ s.rack.budget ≠ some a.budget.toNat →
        exec (.rackSetup (some a)) s = .next (s.answered .busy [])) ∧
      ((∀ k, (s.rack.slot k).inRun = false) ∨ s.port.tick = some tick ∧ s.rack.budget = some a.budget.toNat →
        ∃ t : State, exec (.rackSetup (some a)) s = .next (t.answered .done [a.tick, a.budget, a.attention]) ∧
          t = { s with rack := { s.rack with budget := some a.budget.toNat }
                       port := { s.port with rackState := .set, tick := some tick, attention := attention } })) ∧
  (∀ s : State, s.listening →
    ∃ body : List Byte, exec (.rackStatus (some ⟨⟩)) s = .next (s.answered .done body) ∧ body.length = 27 ∧
      body = [byte s.port.rackState.code, byte s.rack.quiesce.code]
        ++ (match s.port.tick with | none => [0, 0] | some t => [1, byte t.code])
        ++ (match s.rack.budget with | none => [0, 0] | some n => [1, byte n])
        ++ [byte (allSlots.map fun k => (s.rack.slot k).units).sum, byte s.rack.queue.length]
        ++ (s.store.slots.toList.flatMap fun m =>
            if s.port.rackState = .starting then [0, 0] else [1, byte m.state.code])
        ++ [if s.rack.wide then 0 else 1] ++ [byte (s.caseCounter.toNat / 256), byte s.caseCounter.toNat])

def Obligations.RackRestartFaultsEveryRun : Prop :=
  ∀ s : State, s.takesRequests →
    ∃ r : Rack, exec (.rackRestart (some ⟨⟩)) s =
        .next ((State.answered { s with
          rack := r
          store := { s.store with staging := none }
          port := { s.port with rackState := .unset, attention := false } }) .done []) ∧
      r.queue = [] ∧ r.quiesce = .active ∧ r.bench = { s.rack.bench with state := .idle } ∧ r.budget = s.rack.budget ∧ r.wide = s.rack.wide ∧
      r.notices.flags = s.rack.notices.flags ||| 8 ∧
      ∀ k : SlotIx,
        (r.slot k).units = 0 ∧ (r.slot k).line.sure = false ∧
        (r.slot k).latchClosed = (s.rack.slot k).latchClosed ∧ (r.slot k).latchCount = (s.rack.slot k).latchCount ∧
        r.notices.hasSlot k = (s.rack.notices.hasSlot k || (s.rack.slot k).inRun || s.rack.isGranted k) ∧
        (∀ c, (s.rack.slot k).record = some c → c.state.inRun = true →
          (r.slot k).record = some { c with state := .faulted .restart } ∧
          (r.slot k).stamp = (s.rack.slot k).stamp + 1 ∧ (r.slot k).rail.state.isOn = false ∧
          (r.slot k).rail.rest = none ∧ (r.slot k).line.exchange = none ∧ (r.slot k).seq.mode = .off) ∧
        ((s.rack.slot k).inRun = false →
          (r.slot k).record = (s.rack.slot k).record ∧ (r.slot k).stamp = (s.rack.slot k).stamp ∧
          (r.slot k).rail = (s.rack.slot k).rail)

/-! ## The case requests -/

def Obligations.CaseNumbersAreFresh : Prop :=
  ∀ (r : Rack) (counter : Half), ∃ d : Nat, d ≤ 17 ∧ r.nextNumber counter = counter + BitVec.ofNat 16 d ∧
    r.nextNumber counter ≠ 0 ∧ (∀ k c, (r.slot k).record = some c → c.number ≠ r.nextNumber counter) ∧
    ∀ e, e < d → counter + BitVec.ofNat 16 e = 0 ∨
      ∃ k c, (r.slot k).record = some c ∧ c.number = counter + BitVec.ofNat 16 e

def Obligations.CaseAnswersReadTheRecord : Prop :=
  (∀ (r : Rack) (k : SlotIx),
    (∀ c, (r.slot k).record = some c →
      casePrefix r k = [byte (k.val + 1), 1, byte (c.number.toNat / 256), byte c.number.toNat, byte c.state.code,
        byte ((r.slot k).stamp.toNat / 256), byte (r.slot k).stamp.toNat]) ∧
    ((r.slot k).record = none →
      casePrefix r k = [byte (k.val + 1), 0, 0, 0, 0, byte ((r.slot k).stamp.toNat / 256),
        byte (r.slot k).stamp.toNat])) ∧
  (∀ (s : State), s.takesRequests →
    (∀ b : Byte, b.toNat = 0 ∨ 16 < b.toNat ∨ 8 < b.toNat ∧ s.rack.wide = false →
      exec (.caseLook (some (.bySlot b))) s = .next (s.answered .badArg [0, 0, 0])) ∧
    exec (.caseLook (some (.byNumber 0))) s = .next (s.answered .badArg [0, 0, 0]) ∧
    (∀ n : Half, n ≠ 0 → (∀ j c, s.rack.inUse j = true → (s.rack.slot j).record = some c → c.number ≠ n) →
      exec (.caseLook (some (.byNumber n))) s = .next (s.answered .noCase []))) ∧
  ∀ (s : State) (k : SlotIx), s.takesRequests → s.rack.inUse k = true →
    ∃ body : List Byte, body.length = 52 ∧
      (∀ b : Byte, b.toNat = k.val + 1 →
        exec (.caseLook (some (.bySlot b))) s = .next (s.answered .done body)) ∧
      (∀ c, (s.rack.slot k).record = some c → c.number ≠ 0 →
        (∀ j c', (s.rack.slot j).record = some c' → c'.number = c.number → j = k) →
        exec (.caseLook (some (.byNumber c.number))) s = .next (s.answered .done body)) ∧
      ((s.rack.slot k).record = none →
        body = [byte (k.val + 1), 0,
            (if (s.rack.slot k).latchClosed then 1 else 0) ||| (if s.rack.isGranted k then 2 else 0), 0]
          ++ bytes 2 (s.rack.slot k).stamp.toNat ++ List.replicate 32 0
          ++ [byte (s.rack.slot k).units, byte (s.rack.slot k).rail.state.code] ++ List.replicate 12 0) ∧
      ∀ c, (s.rack.slot k).record = some c →
        body = [byte (k.val + 1), byte c.state.code,
            (if (s.rack.slot k).latchClosed then 1 else 0) ||| (if s.rack.isGranted k then 2 else 0)
              ||| (if c.stay.draining then 4 else 0) ||| (if c.poolFull then 8 else 0),
            1 ||| (match c.state with | .faulted _ => 2 | .done _ _ => 2 | _ => 0)
              ||| (if c.boardId.isSome then 4 else 0) ||| (match c.state with | .done _ _ => 8 | _ => 0)]
          ++ bytes 2 (s.rack.slot k).stamp.toNat ++ bytes 2 c.number.toNat
          ++ [match c.state with | .faulted f => byte f.code | .done e _ => byte e.code | _ => 0,
              byte (c.model.val + 1), byte c.priority.code]
          ++ (c.tag ++ List.replicate 16 0).take 16 ++ bytes 2 (c.boardId.getD 0).toNat
          ++ [byte c.stay.position.cycle, byte c.stay.position.stage]
          ++ bytes 3 c.stay.elapsed ++ bytes 4 c.stress
          ++ [byte (s.rack.slot k).units, byte (s.rack.slot k).rail.state.code] ++ bytes 2 c.sagCount
          ++ [byte c.tripCount, byte c.strikes] ++ bytes 4 c.passes
          ++ [byte c.suspects.length, byte c.unplaced, byte (s.rack.heaterDuty k),
              match c.state with | .done _ v => byte v.code | _ => 0]

def Obligations.CaseOpenOpensAReadyCase : Prop :=
  ∀ (s : State) (a : CaseOpenArgs) (k : SlotIx) (m : ModelIx) (p : Priority),
    s.takesRequests → a.slot.toNat = k.val + 1 → s.rack.inUse k = true → a.model.toNat = m.val + 1 →
    priorityArg a.priority = some p → 1 ≤ a.tag.length → a.tag.length ≤ 16 →
    (∀ b ∈ a.tag, 0x20 ≤ b.toNat ∧ b.toNat ≤ 0x7E) →
    (s.store.slots[m]).state = .valid ∨ (s.store.slots[m]).state = .locked → s.store.clearing = false →
    (s.rack.slot k).record = none → (s.rack.slot k).latchClosed = true →
    (∀ j c, (s.rack.slot j).record = some c → c.tag ≠ a.tag) →
    ∃ (r : Rack) (n : Half) (c : CaseRecord),
      exec (.caseOpen (some a)) s =
        .next ((State.withRack { s with caseCounter := n + 1 } r).answered .done (casePrefix r k)) ∧
      n = s.rack.nextNumber s.caseCounter ∧ (r.slot k).record = some c ∧
      (r.slot k).stamp = (s.rack.slot k).stamp + 1 ∧ c.number = n ∧ c.state = .ready ∧ c.model = m ∧
      c.tag = a.tag ∧ c.boardId = none ∧ c.priority = p ∧ c.stay.position = ⟨1, 1⟩ ∧ c.stay.elapsed = 0 ∧
      c.stay.draining = false ∧ c.stay.heldAdvance = false ∧ c.stress = 0 ∧ c.sagCount = 0 ∧ c.tripCount = 0 ∧
      c.strikes = 0 ∧ c.passes = 0 ∧ c.suspects = [] ∧ c.unplaced = 0 ∧ c.poolFull = false ∧
      (r.slot k).units = (s.rack.slot k).units ∧ (r.slot k).rail = (s.rack.slot k).rail ∧
      (r.slot k).watch = (s.rack.slot k).watch ∧
      Rack.onlySlot k s.rack r ∧ r.notices = (s.rack.noticeSlot k).notices

def Obligations.CaseOpenGivesTheFirstReason : Prop :=
  ∀ (s : State) (a : CaseOpenArgs), s.takesRequests →
    (s.rack.slotArg a.slot = none ∨ modelArg a.model = none ∨ tagArg a.tag = false ∨ priorityArg a.priority = none →
      exec (.caseOpen (some a)) s = .next (s.answered .badArg [0, 0, 0])) ∧
    ∀ (k : SlotIx) (m : ModelIx), s.rack.slotArg a.slot = some k → modelArg a.model = some m →
      tagArg a.tag = true → (priorityArg a.priority).isSome = true →
      ((s.store.noModel m = true ∧ s.store.clearing = false) →
        exec (.caseOpen (some a)) s = .next (s.answered .noModel [])) ∧
      ((s.store.noModel m = false ∨ s.store.clearing = true) →
        ((s.rack.slot k).record.isSome = true ∨ (s.rack.slot k).latchClosed = false →
          exec (.caseOpen (some a)) s = .next (s.answered .state [])) ∧
        ((s.rack.slot k).record = none → (s.rack.slot k).latchClosed = true →
          ((s.store.slots[m]).state = .programming ∨ s.store.clearing = true →
            exec (.caseOpen (some a)) s = .next (s.answered .busy [])) ∧
          ((s.store.slots[m]).state ≠ .programming → s.store.clearing = false →
            s.rack.holdsTag none a.tag = true →
            exec (.caseOpen (some a)) s = .next (s.answered .duplicate []))))

def Obligations.CaseStartPowersOrQueues : Prop :=
  ∀ (s : State) (a : SlotArgs) (k : SlotIx) (c : CaseRecord) (need : Nat) (entry : QueueEntry) (joined : List QueueEntry),
    s.takesRequests → a.slot.toNat = k.val + 1 → s.rack.inUse k = true → (s.rack.slot k).record = some c →
    c.state = .ready → (s.rack.slot k).latchClosed = true → s.rack.quiesce = .active →
    (caseModel s.store c).largestNeed ≤ s.rack.budgetUnits → s.rack.queued k = false →
    need = (caseStage s.store c).units → entry = ⟨k, c.number, need, c.priority, false⟩ →
    (c.priority = .normal → joined = s.rack.queue ++ [entry]) →
    (c.priority = .rush → joined = s.rack.queue.filter (fun e => e.priority = .rush) ++
      entry :: s.rack.queue.filter (fun e => e.priority = .normal)) →
    ∃ r : Rack, exec (.caseStart (some a)) s = .next ((s.withRack r).answered .done (casePrefix r k)) ∧
      (need = 0 ∨ s.rack.queue = [] ∧ need ≤ s.rack.freeUnits ∨
          c.priority = .rush ∧ s.rack.queue ≠ [] ∧ (∀ e ∈ s.rack.queue, e.priority = .normal) ∧
            need ≤ s.rack.freeUnits ∧
            (∀ e rest, s.rack.queue = e :: rest → (s.rack.setUnits k need).freeUnits < e.need) →
        r.slot k = { s.rack.slot k with
          record := some { c with state := .powering, strikes := 0 }
          stamp := (s.rack.slot k).stamp + 1
          units := need
          rail := { (s.rack.slot k).rail with
            state := .rising, margin := (caseStage s.store c).margin, rise := 0, sag := 0 } } ∧
        Rack.onlySlot k s.rack r ∧ r.notices = (s.rack.noticeSlot k).notices) ∧
      (need ≠ 0 → (s.rack.queue = [] → s.rack.freeUnits < need) →
        (∀ e rest, joined = e :: rest → s.rack.freeUnits < e.need) →
        r.slot k = { s.rack.slot k with
          record := some { c with state := .waiting, strikes := 0 }
          stamp := (s.rack.slot k).stamp + 1 } ∧
        r.queue = joined ∧
        (∀ j, j ≠ k → r.slot j = s.rack.slot j) ∧ r.notices = (s.rack.noticeSlot k).notices)

def Obligations.PauseAndResumeHoldTheRun : Prop :=
  (∀ (s : State) (a : SlotArgs) (k : SlotIx) (c : CaseRecord),
    s.takesRequests → a.slot.toNat = k.val + 1 → s.rack.inUse k = true → (s.rack.slot k).record = some c →
    c.state = .running →
    ∃ r : Rack, exec (.casePause (some a)) s = .next ((s.withRack r).answered .done (casePrefix r k)) ∧
      r.slot k = { s.rack.slot k with
        record := some { c with state := .paused }, stamp := (s.rack.slot k).stamp + 1 } ∧
      r.heaterDuty k = 0 ∧ (r.stopReasons k).pause = true ∧ Rack.onlySlot k s.rack r ∧
      r.notices = (s.rack.noticeSlot k).notices) ∧
  (∀ (s : State) (a : SlotArgs) (k : SlotIx) (c : CaseRecord),
    s.takesRequests → a.slot.toNat = k.val + 1 → s.rack.inUse k = true → (s.rack.slot k).record = some c →
    (s.rack.slot k).latchClosed = true → s.rack.quiesce = .active →
    (caseModel s.store c).largestNeed ≤ s.rack.budgetUnits →
    (c.state = .paused → c.stay.draining = false →
      ∃ r : Rack, exec (.caseResume (some a)) s = .next ((s.withRack r).answered .done (casePrefix r k)) ∧
        (r.slot k).record = some { c with state := .running, strikes := 0 } ∧
        (r.slot k).stamp = (s.rack.slot k).stamp + 1 ∧ (r.slot k).units = (s.rack.slot k).units ∧
        (r.slot k).rail = (s.rack.slot k).rail ∧ (r.slot k).watch = (s.rack.slot k).watch ∧
        Rack.slotAndGrants k s.rack r) ∧
    (∀ p, c.state = .paused → s.rack.isGranted k = false → s.rack.advanceDue s.store k c p →
      ∃ r : Rack, exec (.caseResume (some a)) s = .next ((s.withRack r).answered .done (casePrefix r k)) ∧
        s.rack.advancedTo s.store r k { c with strikes := 0 } p ∧
        (r.slot k).stamp = (s.rack.slot k).stamp + 1 ∧ r.notices.hasSlot k = true) ∧
    ∀ f, c.state = .faulted f → s.rack.queued k = false →
      (caseStage s.store c).units = 0 ∨ s.rack.queue = [] ∧ (caseStage s.store c).units ≤ s.rack.freeUnits →
      ∃ r : Rack, exec (.caseResume (some a)) s = .next ((s.withRack r).answered .done (casePrefix r k)) ∧
        r.slot k = { s.rack.slot k with
          record := some { c with
            state := .powering, strikes := 0, stay := Stay.begin c.stay.position (caseStage s.store c) }
          stamp := (s.rack.slot k).stamp + 1
          units := (caseStage s.store c).units
          rail := { (s.rack.slot k).rail with
            state := .rising, margin := (caseStage s.store c).margin, rise := 0, sag := 0 } } ∧
        Rack.onlySlot k s.rack r ∧ r.notices = (s.rack.noticeSlot k).notices)

def Obligations.CaseStopEndsTheRun : Prop :=
  ∀ (s : State) (a : SlotArgs) (k : SlotIx) (c : CaseRecord),
    s.takesRequests → a.slot.toNat = k.val + 1 → s.rack.inUse k = true → (s.rack.slot k).record = some c →
    c.state.inRun = true ∨ (∃ f, c.state = .faulted f) →
    ∃ r : Rack, exec (.caseStop (some a)) s = .next ((s.withRack r).answered .done (casePrefix r k)) ∧
      (r.slot k).record = some { c with
        state := .done .stopped (verdictOf c.suspects)
        stay := { c.stay with draining := false, heldAdvance := false } } ∧
      (r.slot k).stamp = (s.rack.slot k).stamp + 1 ∧ (r.slot k).units = 0 ∧ r.queued k = false ∧
      (r.slot k).rail.state = .off ∧ (r.slot k).rail.rest = none ∧ (r.slot k).line.exchange = none ∧
      (r.slot k).seq.mode = .off ∧ (r.slot k).watch.beat = none ∧ (r.slot k).watch.boot = none ∧
      Rack.slotAndGrants k s.rack r ∧ r.notices.hasSlot k = true ∧
      (s.rack.isPending k = true → r.bench.state = .granted k ∧ (r.slot k).line.state = .passed) ∧
      (s.rack.quiesce = .quiescing →
        ((∀ j, j ≠ k → s.rack.inUse j = true → s.rack.isIdle j = true) →
          r.quiesce = .quiesced ∧ r.notices.flags = s.rack.notices.flags ||| 1) ∧
        ((∃ j, j ≠ k ∧ s.rack.inUse j = true ∧ s.rack.isIdle j = false) →
          r.quiesce = .quiescing ∧ r.notices.flags = s.rack.notices.flags))

def Obligations.CaseCloseEmptiesTheRecord : Prop :=
  ∀ (s : State) (a : SlotArgs) (k : SlotIx) (c : CaseRecord),
    s.takesRequests → a.slot.toNat = k.val + 1 → s.rack.inUse k = true → (s.rack.slot k).record = some c →
    c.state.inRun = false →
    ∃ r : Rack, exec (.caseClose (some a)) s = .next ((s.withRack r).answered .done (casePrefix r k)) ∧
      (r.slot k).record = none ∧ (r.slot k).suspectCount = 0 ∧ (r.slot k).stamp = (s.rack.slot k).stamp + 1 ∧
      (r.slot k).rail = { (s.rack.slot k).rail with
        state := if (s.rack.slot k).rail.state = .tripped then .off else (s.rack.slot k).rail.state } ∧
      (r.slot k).line.pointer = 0 ∧ (r.slot k).line.sure = false ∧
      (r.slot k).line.state = (s.rack.slot k).line.state ∧ (r.slot k).units = (s.rack.slot k).units ∧
      Rack.onlySlot k s.rack r ∧ r.notices = (s.rack.noticeSlot k).notices

def Obligations.CaseFindFindsTheTag : Prop :=
  ∀ (s : State) (a : CaseFindArgs), s.takesRequests →
    ((a.tag = [] ∨ 16 < a.tag.length ∨ ∃ b ∈ a.tag, b.toNat < 0x20 ∨ 0x7E < b.toNat) →
      exec (.caseFind (some a)) s = .next (s.answered .badArg [0, 0, 0])) ∧
    (a.tag ≠ [] → a.tag.length ≤ 16 → (∀ b ∈ a.tag, 0x20 ≤ b.toNat ∧ b.toNat ≤ 0x7E) →
      ((∀ j c, s.rack.inUse j = true → (s.rack.slot j).record = some c → c.tag ≠ a.tag) →
        exec (.caseFind (some a)) s = .next (s.answered .noCase [])) ∧
      ∀ k c, s.rack.inUse k = true → (s.rack.slot k).record = some c → c.tag = a.tag →
        (∀ j c', (s.rack.slot j).record = some c' → c'.tag = a.tag → j = k) →
        exec (.caseFind (some a)) s = .next (s.answered .done (casePrefix s.rack k)))

def Obligations.CaseAmendChangesTheNamedFields : Prop :=
  ∀ (s : State) (a : CaseAmendArgs) (k : SlotIx) (c : CaseRecord),
    s.takesRequests → a.slot.toNat = k.val + 1 → s.rack.inUse k = true → (s.rack.slot k).record = some c →
    amendGood a = true →
    (a.stamp ≠ (s.rack.slot k).stamp →
      exec (.caseAmend (some a)) s =
        .next (s.answered .stale (byte (k.val + 1) :: halfBytes (s.rack.slot k).stamp))) ∧
    (a.stamp = (s.rack.slot k).stamp →
      (∀ tag, a.newTag = some tag → ∀ j c', j ≠ k → (s.rack.slot j).record = some c' → c'.tag ≠ tag) →
      (a.newPriority = none ∨ amendPriority a = some c.priority ∨ s.rack.queued k = false) →
      ∃ r : Rack, exec (.caseAmend (some a)) s = .next ((s.withRack r).answered .done (casePrefix r k)) ∧
        r.slot k = { s.rack.slot k with
          record := some { c with
            tag := a.newTag.getD c.tag
            priority := (amendPriority a).getD c.priority
            boardId := if a.forgetId then none else c.boardId }
          stamp := (s.rack.slot k).stamp + 1 } ∧
        Rack.onlySlot k s.rack r ∧ r.notices = s.rack.notices) ∧
    (a.stamp = (s.rack.slot k).stamp →
      (∀ tag, a.newTag = some tag → ∀ j c', j ≠ k → (s.rack.slot j).record = some c' → c'.tag ≠ tag) →
      ∀ (e : QueueEntry) (others moved : List QueueEntry) (p : Priority) (c' : CaseRecord),
        s.rack.queue.find? (fun e => e.slot == k) = some e → others = s.rack.queue.filter (fun e => e.slot ≠ k) →
        amendPriority a = some p → p ≠ c.priority →
        (p = .normal → moved = others ++ [{ e with priority := .normal }]) →
        (p = .rush → moved = others.filter (fun e => e.priority = .rush) ++
          { e with priority := .rush } :: others.filter (fun e => e.priority = .normal)) →
        c' = { c with
          tag := a.newTag.getD c.tag, priority := p, boardId := if a.forgetId then none else c.boardId } →
        ∃ r : Rack, exec (.caseAmend (some a)) s = .next ((s.withRack r).answered .done (casePrefix r k)) ∧
          (s.rack.quiesce ≠ .active ∨ (∀ h rest, moved = h :: rest → s.rack.freeUnits < h.need) →
            r.queue = moved ∧
            r.slot k = { s.rack.slot k with record := some c', stamp := (s.rack.slot k).stamp + 1 } ∧
            (∀ j, j ≠ k → r.slot j = s.rack.slot j) ∧ r.notices = s.rack.notices) ∧
          ∀ rest, s.rack.quiesce = .active → moved = { e with priority := p } :: rest → e.need ≤ s.rack.freeUnits →
            (∀ h rest', rest = h :: rest' → (s.rack.setUnits k e.need).freeUnits < h.need) → c.state = .waiting →
            r.queue = rest ∧ (r.slot k).units = e.need ∧ (r.slot k).stamp = (s.rack.slot k).stamp + 2 ∧
            r.notices = (s.rack.noticeSlot k).notices ∧ (∀ j, j ≠ k → r.slot j = s.rack.slot j) ∧
            ((s.rack.slot k).rail.state.isOn = false →
              (r.slot k).record = some { c' with state := .powering } ∧
              (r.slot k).rail = { (s.rack.slot k).rail with
                state := .rising, margin := (caseStage s.store c).margin, rise := 0, sag := 0 }) ∧
            ((s.rack.slot k).rail.state.isOn = true →
              (r.slot k).record = some { c' with state := .running } ∧ (r.slot k).rail = (s.rack.slot k).rail ∧
              (r.slot k).seq.mode = .program ∧ (r.slot k).seq.step = 1 ∧ (r.slot k).seq.index = 0))

/-! ## The suspect requests -/

def Obligations.SuspectReadsListEntries : Prop :=
  (∀ (s : State) (a : SuspectListArgs) (k : SlotIx) (c : CaseRecord),
    s.takesRequests → a.slot.toNat = k.val + 1 → s.rack.inUse k = true → (s.rack.slot k).record = some c →
    1 ≤ a.firstRank.toNat → a.firstRank.toNat ≤ 24 →
    ∃ entries : List (List Byte),
      exec (.suspectList (some a)) s = .next (s.answered .done
        ([byte (k.val + 1)] ++ bytes 2 c.number.toNat ++ bytes 2 (s.rack.slot k).stamp.toNat ++
          [byte c.suspects.length, byte c.unplaced, if c.poolFull then 0 else 1, byte s.rack.freeEntries,
            byte entries.length] ++ entries.flatten)) ∧
      entries.length = min 10 (c.suspects.length - (a.firstRank.toNat - 1)) ∧ (∀ e ∈ entries, e.length = 30) ∧
      ∀ (i : Nat) (x : Suspect) (y : Component), i < 10 → c.suspects[a.firstRank.toNat - 1 + i]? = some x →
        1 ≤ x.component → (caseModel s.store c).components[x.component - 1]? = some y →
        entries[i]? = some ([byte (a.firstRank.toNat + i), byte x.component]
          ++ (y.designator ++ List.replicate 8 0).take 8
          ++ [match y.cls with
                | .memory => (0 : Byte) | .storage => 1 | .processor => 2 | .io => 3 | .power => 4 | .clock => 5 | .path => 6,
              match x.state with | .opened => 0 | .confirmed => 1 | .cleared => 2 | .reworked => 3,
              (if x.recurred then 1 else 0) ||| (if x.firstSeen = none then 0 else 2)
                ||| (if x.lastSeen = none then 0 else 4)]
          ++ bytes 2 x.serial ++ bytes 2 x.fails ++ bytes 2 x.hotFails ++ bytes 2 x.passes ++ bytes 2 x.quiet
          ++ [byte x.positionsSeen]
          ++ (match x.firstSeen with | none => [0, 0] | some p => [byte p.cycle, byte p.stage])
          ++ (match x.lastSeen with | none => [0, 0] | some p => [byte p.cycle, byte p.stage])
          ++ bytes 2 x.symptoms.toNat)) ∧
  (∀ (s : State) (a : SweepArgs) (m : ModelIx),
    s.takesRequests → a.model.toNat = m.val + 1 →
    (s.store.slots[m]).state = .valid ∨ (s.store.slots[m]).state = .locked → s.store.clearing = false →
    1 ≤ a.component.toNat → a.component.toNat ≤ (s.store.model m).components.length →
    ∃ (found : List SlotIx) (entries : List (List Byte)),
      exec (.suspectSweep (some a)) s =
        .next (s.answered .done (byte found.length :: entries.flatten)) ∧
      found.Pairwise (fun i j => i < j) ∧
      (∀ k, k ∈ found ↔ s.rack.inUse k = true ∧ ∃ c, (s.rack.slot k).record = some c ∧ c.model = m ∧
        ∃ x ∈ c.suspects, x.component = a.component.toNat) ∧
      entries.length = found.length ∧
      ∀ (i : Nat) (k : SlotIx) (c : CaseRecord) (x : Suspect), found[i]? = some k → (s.rack.slot k).record = some c →
        suspectFor a.component.toNat c.suspects = some x →
        entries[i]? = some ([byte (k.val + 1)] ++ bytes 2 c.number.toNat ++
          [byte c.state.code, match x.state with | .opened => 0 | .confirmed => 1 | .cleared => 2 | .reworked => 3]
          ++ bytes 2 x.fails ++ bytes 2 x.hotFails))

def Obligations.NotesAccuseConfirmAndClear : Prop :=
  (∀ (s : State) (a : NoteArgs) (k : SlotIx) (c : CaseRecord),
    s.takesRequests → a.slot.toNat = k.val + 1 → s.rack.inUse k = true → (s.rack.slot k).record = some c →
    a.stamp = (s.rack.slot k).stamp → 1 ≤ a.component.toNat →
    a.component.toNat ≤ (caseModel s.store c).components.length →
    suspectFor a.component.toNat c.suspects = none →
    (0 < s.rack.freeEntries → 1 ≤ (caseModel s.store c).header.confirmSpread →
      ∃ r : Rack, exec (.suspectNoteFail (some a)) s =
          .next ((s.withRack r).answered .done (casePrefix r k ++ noteBody r k a.component.toNat)) ∧
        suspectFor a.component.toNat (r.slot k).suspects = some
          { component := a.component.toNat, state := .opened, serial := c.nextSerial, fails := 1, hotFails := 0,
            passes := 0, quiet := 0, positionsSeen := 0, firstSeen := none, lastSeen := none, symptoms := 512,
            recurred := false } ∧
        (r.slot k).suspectCount = (s.rack.slot k).suspectCount + 1 ∧
        (r.slot k).stamp = (s.rack.slot k).stamp + 1 ∧ Rack.onlySlot k s.rack r ∧ r.notices = s.rack.notices) ∧
    (∀ r₁ : Rack, s.rack.entryFound r₁ k → 1 ≤ (caseModel s.store c).header.confirmSpread →
      ∃ r : Rack, exec (.suspectNoteFail (some a)) s =
          .next ((s.withRack r).answered .done (casePrefix r k ++ noteBody r k a.component.toNat)) ∧
        r.slot k = { r₁.slot k with
          record := some { c.withList (rankPlace
              { component := a.component.toNat, state := .opened, serial := c.nextSerial, fails := 1, hotFails := 0,
                passes := 0, quiet := 0, positionsSeen := 0, firstSeen := none, lastSeen := none, symptoms := 512,
                recurred := false } (r₁.slot k).suspects) with
            nextSerial := min (c.nextSerial + 1) 65535 }
          stamp := (s.rack.slot k).stamp + 1 } ∧
        (∀ j, j ≠ k → r.slot j = r₁.slot j) ∧ r.queue = s.rack.queue ∧ r.notices = s.rack.notices) ∧
    (s.rack.poolExhausted → exec (.suspectNoteFail (some a)) s = .next (s.answered .full [])) ∧
    exec (.suspectNoteConfirm (some a)) s = .next (s.answered .state []) ∧
    exec (.suspectNoteClear (some a)) s = .next (s.answered .state [])) ∧
  (∀ (s : State) (a : NoteArgs) (k : SlotIx) (c : CaseRecord) (x : Suspect),
    s.takesRequests → a.slot.toNat = k.val + 1 → s.rack.inUse k = true → (s.rack.slot k).record = some c →
    a.stamp = (s.rack.slot k).stamp → 1 ≤ a.component.toNat →
    a.component.toNat ≤ (caseModel s.store c).components.length →
    suspectFor a.component.toNat c.suspects = some x →
    (∃ (r : Rack) (y : Suspect), y = Suspect.takeFail (caseModel s.store c).header ⟨.manual, none, none⟩ x ∧
      exec (.suspectNoteFail (some a)) s =
        .next ((s.withRack r).answered .done (casePrefix r k ++ noteBody r k a.component.toNat)) ∧
      r.slot k = { s.rack.slot k with
        record := some (c.withList (rankPlace y c.suspects)), stamp := (s.rack.slot k).stamp + 1 } ∧
      Rack.onlySlot k s.rack r ∧
      r.notices = if y.state = .confirmed ∧ x.state ≠ .confirmed then (s.rack.noticeSlot k).notices
        else s.rack.notices) ∧
    (x.state ≠ .reworked →
      ∃ r : Rack, exec (.suspectNoteConfirm (some a)) s =
          .next ((s.withRack r).answered .done (casePrefix r k ++ noteBody r k a.component.toNat)) ∧
        r.slot k = { s.rack.slot k with
          record := some (c.withList (rankPlace { x with state := .confirmed } c.suspects))
          stamp := (s.rack.slot k).stamp + 1 } ∧
        Rack.onlySlot k s.rack r ∧
        r.notices = if x.state = .confirmed then s.rack.notices else (s.rack.noticeSlot k).notices) ∧
    (x.state = .opened ∨ x.state = .cleared →
      ∃ r : Rack, exec (.suspectNoteClear (some a)) s =
          .next ((s.withRack r).answered .done (casePrefix r k ++ noteBody r k a.component.toNat)) ∧
        r.slot k = { s.rack.slot k with
          record := some (c.withList (rankPlace { x with state := .cleared } c.suspects))
          stamp := (s.rack.slot k).stamp + 1 } ∧
        Rack.onlySlot k s.rack r ∧ r.notices = s.rack.notices) ∧
    (x.state = .reworked →
      exec (.suspectNoteConfirm (some a)) s = .next (s.answered .state []) ∧
      exec (.suspectNoteClear (some a)) s = .next (s.answered .state [])) ∧
    (x.state = .confirmed → exec (.suspectNoteClear (some a)) s = .next (s.answered .state [])))

def Obligations.ReworkReturnsAFinishedCaseToReady : Prop :=
  ∀ (s : State) (a : ReworkArgs) (k : SlotIx) (c : CaseRecord) (selected : Suspect → Prop),
    s.takesRequests → a.slot.toNat = k.val + 1 → s.rack.inUse k = true → (s.rack.slot k).record = some c →
    a.stamp = (s.rack.slot k).stamp → c.state.reworkable = true →
    (∃ i : Byte, a.range = none ∧ a.component = some i ∧ 1 ≤ i.toNat ∧
        i.toNat ≤ (caseModel s.store c).components.length ∧ ∀ x, selected x ↔ x.component = i.toNat) ∨
      (∃ first last : Addr, a.component = none ∧ a.range = some (first, last) ∧ first ≤ last ∧
        ∀ x, selected x ↔ ∃ y low high, (caseModel s.store c).components[x.component - 1]? = some y ∧
          y.range = some (low, high) ∧ low ≤ last ∧ first ≤ high) →
    ((∃ x ∈ c.suspects, selected x) →
      ∃ (r : Rack) (c' : CaseRecord),
        exec (.rework (some a)) s = .next ((s.withRack r).answered .done (casePrefix r k)) ∧
        r.slot k = { s.rack.slot k with record := some c', stamp := (s.rack.slot k).stamp + 1 } ∧
        (∀ y, y ∈ c'.suspects ↔ (y ∈ c.suspects ∧ ¬ selected y) ∨
          ∃ x ∈ c.suspects, selected x ∧ y = { x with
            state := .reworked, fails := 0, hotFails := 0, passes := 0, quiet := 0, positionsSeen := 0,
            firstSeen := none, lastSeen := none }) ∧
        c'.suspects.length = c.suspects.length ∧
        ((c.suspects.map (·.component)).Nodup → c'.suspects.Pairwise fun x y => x.before y = true) ∧
        Rack.onlySlot k s.rack r ∧
        (∀ e v, c.state = .done e v →
          c' = { c with
            state := .ready
            stay := Stay.begin ⟨1, 1⟩ ((caseModel s.store c).stage 1)
            poolFull := false
            suspects := c'.suspects } ∧
          r.notices = (s.rack.noticeSlot k).notices) ∧
        (c.state = .ready ∨ (∃ f, c.state = .faulted f) →
          c' = { c with poolFull := false, suspects := c'.suspects } ∧ r.notices = s.rack.notices)) ∧
    ((∀ x ∈ c.suspects, ¬ selected x) →
      ∃ r : Rack, exec (.rework (some a)) s = .next ((s.withRack r).answered .done (casePrefix r k)) ∧
        r.slot k = { s.rack.slot k with stamp := (s.rack.slot k).stamp + 1 } ∧
        Rack.onlySlot k s.rack r ∧ r.notices = s.rack.notices)

def Obligations.FailItemsAndTheVerdict : Prop :=
  (∀ (h : Header) (f : Fail) (x : Suspect),
    (x.state = .reworked →
      Suspect.takeFail h f x =
        { x with state := if h.confirmThreshold ≤ 1 ∧
                     h.confirmSpread ≤ (if f.position.isSome then 1 else 0) then .confirmed else .opened
                 fails := 1, hotFails := if f.phase = some .a then 1 else 0, passes := 0, quiet := 0,
                 positionsSeen := if f.position.isSome then 1 else 0, firstSeen := f.position, lastSeen := f.position,
                 symptoms := BitVec.twoPow 10 f.symptom.bit, recurred := true }) ∧
    (x.state ≠ .reworked →
      (Suspect.takeFail h f x).fails = min (x.fails + 1) 65535 ∧
      (Suspect.takeFail h f x).hotFails = min (x.hotFails + if f.phase = some .a then 1 else 0) 65535 ∧
      (Suspect.takeFail h f x).quiet = 0 ∧ (Suspect.takeFail h f x).recurred = x.recurred ∧
      (f.position = none ∨ x.lastSeen = f.position →
        (Suspect.takeFail h f x).positionsSeen = x.positionsSeen ∧
        (Suspect.takeFail h f x).firstSeen = x.firstSeen ∧ (Suspect.takeFail h f x).lastSeen = x.lastSeen) ∧
      (∀ p, f.position = some p → x.lastSeen ≠ some p →
        (Suspect.takeFail h f x).positionsSeen = min (x.positionsSeen + 1) 255 ∧
        (Suspect.takeFail h f x).lastSeen = some p ∧
        (Suspect.takeFail h f x).firstSeen = some (x.firstSeen.getD p)) ∧
      (Suspect.takeFail h f x).serial = x.serial ∧ (Suspect.takeFail h f x).component = x.component ∧
      (Suspect.takeFail h f x).passes = x.passes ∧
      (Suspect.takeFail h f x).symptoms = x.symptoms ||| BitVec.twoPow 10 f.symptom.bit ∧
      ((Suspect.takeFail h f x).state = .confirmed ↔
        x.state = .confirmed ∨
          h.confirmThreshold ≤ min (x.fails + 1) 65535 ∧ h.confirmSpread ≤ (Suspect.takeFail h f x).positionsSeen) ∧
      ((Suspect.takeFail h f x).state ≠ .confirmed → (Suspect.takeFail h f x).state = .opened)) ∧
    Suspect.takePass h x = { x with
      passes := min (x.passes + 1) 65535
      quiet := min (x.quiet + 1) 65535
      state := if x.state = .opened ∧ h.clearCount ≠ 0 ∧ h.clearCount ≤ min (x.quiet + 1) 65535 then .cleared
        else x.state }) ∧
  (∀ (st : Store) (r : Rack) (k : SlotIx) (c : CaseRecord) (component : Nat), (r.slot k).record = some c →
    (suspectFor component c.suspects = none → r.passItem st k component = r) ∧
    (∀ x y, suspectFor component c.suspects = some x → y = Suspect.takePass (caseModel st c).header x →
      (r.passItem st k component).slot k = { r.slot k with
        record := some (c.withList (rankPlace y c.suspects))
        stamp := if y.state = x.state then (r.slot k).stamp else (r.slot k).stamp + 1 } ∧
      Rack.onlySlot k r (r.passItem st k component) ∧ (r.passItem st k component).notices = r.notices) ∧
    ∀ f : Fail, 1 ≤ component → component ≤ (caseModel st c).components.length →
      (∀ x y, suspectFor component c.suspects = some x → y = Suspect.takeFail (caseModel st c).header f x →
        (r.failItem st k component f).slot k = { r.slot k with
          record := some (c.withList (rankPlace y c.suspects))
          stamp := if y.state = x.state then (r.slot k).stamp else (r.slot k).stamp + 1 } ∧
        Rack.onlySlot k r (r.failItem st k component f) ∧
        (r.failItem st k component f).notices =
          if y.state = .confirmed ∧ x.state ≠ .confirmed then (r.noticeSlot k).notices else r.notices) ∧
      (∀ (r₁ : Rack) (y : Suspect), suspectFor component c.suspects = none → r.entryFound r₁ k →
        y = { component := component
              state := if (caseModel st c).header.confirmThreshold ≤ 1 ∧
                  (caseModel st c).header.confirmSpread ≤ (if f.position.isSome then 1 else 0) then .confirmed
                else .opened
              serial := c.nextSerial, fails := 1, hotFails := if f.phase = some .a then 1 else 0, passes := 0
              quiet := 0, positionsSeen := if f.position.isSome then 1 else 0, firstSeen := f.position
              lastSeen := f.position, symptoms := BitVec.twoPow 10 f.symptom.bit, recurred := false } →
        (r.failItem st k component f).slot k = { r₁.slot k with
          record := some { c.withList (rankPlace y (r₁.slot k).suspects) with
            nextSerial := min (c.nextSerial + 1) 65535 }
          stamp := (r.slot k).stamp + 1 } ∧
        (∀ j, j ≠ k → (r.failItem st k component f).slot j = r₁.slot j) ∧
        (r.failItem st k component f).notices =
          if y.state = .confirmed then (r.noticeSlot k).notices else r.notices) ∧
      (suspectFor component c.suspects = none → r.poolExhausted →
        (r.failItem st k component f).slot k = { r.slot k with
          record := some { c with unplaced := min (c.unplaced + 1) 255, poolFull := true } } ∧
        Rack.onlySlot k r (r.failItem st k component f) ∧
        (r.failItem st k component f).notices = if c.poolFull then r.notices else (r.noticeSlot k).notices)) ∧
  (∀ l : List Suspect,
    (verdictOf l = .fail ↔ ∃ x ∈ l, x.state = .confirmed) ∧
    (verdictOf l = .marginal ↔ (∀ x ∈ l, x.state ≠ .confirmed) ∧ ∃ x ∈ l, x.state = .opened) ∧
    (verdictOf l = .pass ↔ ∀ x ∈ l, x.state = .cleared ∨ x.state = .reworked))

/-! ## The model requests and the store -/

def Obligations.StagingRequestsBuildTheRecord : Prop :=
  ∀ s : State, s.takesRequests → s.store.write = none →
    (∀ (a : ModelBeginArgs) (inRange : Prop),
      (inRange ↔ 1 ≤ a.name.length ∧ a.name.length ≤ 12 ∧ (∀ b ∈ a.name, 0x20 ≤ b.toNat ∧ b.toNat ≤ 0x7E) ∧
        a.lineRate.toNat ≤ 3 ∧ a.retries.toNat ≤ 3 ∧ 1 ≤ a.confirmThreshold.toNat ∧ 1 ≤ a.confirmSpread.toNat ∧
        a.confirmSpread.toNat ≤ 16 ∧ 1 ≤ a.bootAllowance.toNat ∧ a.strikeLimit.toNat ≤ 15 ∧ 1 ≤ a.restTime.toNat ∧
        1 ≤ a.riseAllowance.toNat ∧ 1 ≤ a.sagAllowance.toNat ∧ 1 ≤ a.cycles.toNat ∧
        1 ≤ a.path.toNat ∧ a.path.toNat ≤ 24 ∧ 1 ≤ a.rail.toNat ∧ a.rail.toNat ≤ 24 ∧
        1 ≤ a.hang.toNat ∧ a.hang.toNat ≤ 24) →
      (¬ inRange → exec (.modelBegin (some a)) s = .next (s.answered .badArg [0, 0, 0])) ∧
      ∀ rate : LineRate, (a.lineRate.toNat, rate) ∈
          [(0, LineRate.r9600), (1, LineRate.r19200), (2, LineRate.r57600), (3, LineRate.r115200)] → inRange →
        exec (.modelBegin (some a)) s =
          .next ((s.withStore { s.store with staging := some {
              header := {
                name := a.name, lineRate := rate, retries := a.retries.toNat
                confirmThreshold := a.confirmThreshold.toNat, confirmSpread := a.confirmSpread.toNat
                clearCount := a.clearCount.toNat, bootAllowance := a.bootAllowance.toNat
                strikeLimit := a.strikeLimit.toNat, restTime := a.restTime.toNat
                riseAllowance := a.riseAllowance.toNat, sagAllowance := a.sagAllowance.toNat
                cycles := a.cycles.toNat, path := a.path.toNat, rail := a.rail.toNat, hang := a.hang.toNat }
              components := [], stages := [], programs := Vector.replicate 4 [] } }).answered .done
            [1, 0, 0, 0, 0, 0, 0])) ∧
    (∀ (a : AddComponentArgs) (inRange : Prop),
      (inRange ↔ 1 ≤ a.designator.length ∧ a.designator.length ≤ 8 ∧
        (∀ b ∈ a.designator, 0x20 ≤ b.toNat ∧ b.toNat ≤ 0x7E) ∧ a.cls.toNat ≤ 6 ∧
        ∀ w, a.waitClass = some w → w.toNat ≤ 7 ∧ a.range ≠ none) →
      (¬ inRange → exec (.modelAddComponent (some a)) s = .next (s.answered .badArg [0, 0, 0])) ∧
      ∀ (cls : ComponentClass) (m m' : Model), (a.cls.toNat, cls) ∈
          [(0, ComponentClass.memory), (1, ComponentClass.storage), (2, ComponentClass.processor),
            (3, ComponentClass.io), (4, ComponentClass.power), (5, ComponentClass.clock), (6, ComponentClass.path)] →
        inRange → s.store.staging = some m → m.components.length < 24 →
        m' = { m with components := m.components ++ [
          { designator := a.designator, cls := cls, range := a.range
            waitClass := match a.waitClass with | none => 0 | some w => w.toNat }] } →
        exec (.modelAddComponent (some a)) s =
          .next ((s.withStore { s.store with staging := some m' }).answered .done (stagingBody (some m')))) ∧
    (∀ (a : AddStageArgs) (inRange : Prop),
      (inRange ↔ 1 ≤ a.duration.toNat ∧ a.margin.toNat ≤ 2 ∧ a.dutyA.toNat ≤ 100 ∧ a.dutyB.toNat ≤ 100 ∧
        a.units.toNat ≤ 15 ∧ a.program.toNat ≤ 4) →
      (¬ inRange → exec (.modelAddStage (some a)) s = .next (s.answered .badArg [0, 0, 0])) ∧
      ∀ (margin : Margin) (m m' : Model),
        (a.margin.toNat, margin) ∈ [(0, Margin.nominal), (1, Margin.low), (2, Margin.high)] →
        inRange → s.store.staging = some m → m.stages.length < 8 →
        m' = { m with stages := m.stages ++ [
          { duration := a.duration.toNat, margin := margin, dutyA := a.dutyA.toNat, dutyB := a.dutyB.toNat
            halfPeriod := a.halfPeriod.toNat, units := a.units.toNat, program := a.program.toNat
            window := a.window.toNat }] } →
        exec (.modelAddStage (some a)) s =
          .next ((s.withStore { s.store with staging := some m' }).answered .done (stagingBody (some m')))) ∧
    (∀ m : Model, stagingBody (some m) = [1, byte m.components.length, byte m.stages.length,
      byte m.programs[0].length, byte m.programs[1].length, byte m.programs[2].length, byte m.programs[3].length]) ∧
    (∀ a : AddStepArgs, a.program.toNat = 0 ∨ 4 < a.program.toNat →
      exec (.modelAddStep (some a)) s = .next (s.answered .badArg [0, 0, 0])) ∧
    ∀ (a : AddStepArgs) (p : Fin 4) (m m' : Model), a.program.toNat = p.val + 1 →
      s.store.staging = some m → m.programs[p].length < 32 →
      m' = { m with programs := m.programs.set p (m.programs[p] ++ [
        { kind := a.kind, start := a.start, count := a.count.toNat, pattern := a.pattern, value := a.value
          mask := a.mask, bound := a.bound }]) } →
      exec (.modelAddStep (some a)) s =
        .next ((s.withStore { s.store with staging := some m' }).answered .done (stagingBody (some m')))

def Obligations.ModelDiscardEmptiesTheStaging : Prop :=
  ∀ s : State, s.takesRequests →
    (s.store.write = none →
      exec (.modelDiscard (some ⟨⟩)) s =
        .next ((s.withStore { s.store with staging := none }).answered .done [0, 0, 0, 0, 0, 0, 0])) ∧
    (s.store.write = none → s.store.staging = none →
      exec (.modelDiscard (some ⟨⟩)) s = .next (s.answered .done [0, 0, 0, 0, 0, 0, 0])) ∧
    (s.store.write ≠ none → exec (.modelDiscard (some ⟨⟩)) s = .next (s.answered .busy []))

def Obligations.ValidationAcceptsExactlyTheGoodRecords : Prop :=
  ∀ m : Model, m.fault = none ↔
    m.components ≠ [] ∧ m.stages ≠ [] ∧
    (∀ x ∈ m.components, ∀ first last, x.range = some (first, last) → first ≤ last) ∧
    (m.components.Pairwise fun x y => ∀ a b c d, x.range = some (a, b) → y.range = some (c, d) → b < c ∨ d < a) ∧
    (m.header.path ≤ m.components.length ∧ m.header.rail ≤ m.components.length ∧
      m.header.hang ≤ m.components.length) ∧
    (∀ p : Fin 4, ∀ x ∈ m.programs[p],
      x.kind.toNat ≤ 2 ∧ x.pattern.toNat ≤ 3 ∧ x.bound.toNat ≤ 1 ∧ 1 ≤ x.count ∧ x.count ≤ 4096 ∧
      (x.kind = 0 → x.pattern = 0 ∧ x.start = 0 ∧ x.value = 0 ∧ x.mask = 0) ∧
      (x.kind = 1 ∨ x.kind = 2 → x.start.toNat + x.count ≤ 0x1000000 ∧ (x.pattern ≠ 0 → x.value = 0)) ∧
      (x.kind = 2 → x.mask = 0)) ∧
    (∀ p : Fin 4, ∀ x, m.programs[p].getLast? = some x → x.bound ≠ 0) ∧
    ∀ x ∈ m.stages, x.program ≠ 0 → ∃ (p : Fin 4), x.program = p.val + 1 ∧ m.programs[p] ≠ []

def Obligations.CommitProgramsTheSlot : Prop :=
  (∀ (s : State) (a : ModelSlotArgs) (m : ModelIx) (record : Model),
    s.takesRequests → a.model.toNat = m.val + 1 → s.store.staging = some record →
    (∀ d l, record.fault = some (d, l) →
      exec (.modelCommit (some a)) s = .next (s.answered .badArg [byte d, byte (l / 256), byte l])) ∧
    (record.fault = none → s.store.write ≠ none →
      exec (.modelCommit (some a)) s = .next (s.answered .busy [])) ∧
    (record.fault = none → s.store.write = none → (s.store.slots[m]).state = .locked →
      exec (.modelCommit (some a)) s = .next (s.answered .locked [])) ∧
    (record.fault = none → s.store.write = none → (s.store.slots[m]).state ≠ .locked →
      (∃ k c, (s.rack.slot k).record = some c ∧ c.model = m) →
      exec (.modelCommit (some a)) s = .next (s.answered .inUse [])) ∧
    (record.fault = none → s.store.write = none → (s.store.slots[m]).state ≠ .locked →
      (∀ k c, (s.rack.slot k).record = some c → c.model ≠ m) →
      ∃ st : Store, exec (.modelCommit (some a)) s =
          .next ((s.withStore st).answered .accepted [byte (m.val + 1), 1]) ∧
        (st.slots[m]).state = .programming ∧ st.staging = none ∧ st.write = some (.programming m) ∧
        st.model m = record ∧ ∀ n : ModelIx, n ≠ m → st.slots[n] = s.store.slots[n])) ∧
  (∀ (s : State) (m : ModelIx) (good : Bool), s.quiet → s.store.write = some (.programming m) →
    ∃ (st : Store) (r : Rack), exec (.programmingEnd good) s = .next { s with store := st, rack := r } ∧
      st.write = none ∧ st.staging = s.store.staging ∧ (∀ n : ModelIx, n ≠ m → st.slots[n] = s.store.slots[n]) ∧
      (st.slots[m]).model = (s.store.slots[m]).model ∧ r.slots = s.rack.slots ∧
      (good = true → (st.slots[m]).state = .valid ∧ (st.slots[m]).progress = .complete ∧
        (st.slots[m]).lockMark = false ∧ r.notices.flags = s.rack.notices.flags ||| 2) ∧
      (good = false → (st.slots[m]).state = .damaged ∧ (st.slots[m]).progress = .begun ∧
        r.notices.flags = s.rack.notices.flags ||| 4))

def Obligations.ModelReadGivesThePart : Prop :=
  ∀ (s : State) (a : ModelReadArgs) (m : ModelIx),
    s.takesRequests → a.model.toNat = m.val + 1 →
    (s.store.slots[m]).state = .valid ∨ (s.store.slots[m]).state = .locked → s.store.write = none →
    (∀ (state need : Nat), a.part = .header →
      ((s.store.slots[m]).state = .valid → state = 2) → ((s.store.slots[m]).state = .locked → state = 3) →
      (∀ x ∈ (s.store.model m).stages, x.units ≤ need) →
      (need = 0 ∨ ∃ x ∈ (s.store.model m).stages, x.units = need) →
      exec (.modelRead (some a)) s = .next (s.answered .done
        ([byte state] ++ ((s.store.model m).header.name ++ List.replicate 12 0).take 12
          ++ [match (s.store.model m).header.lineRate with | .r9600 => 0 | .r19200 => 1 | .r57600 => 2 | .r115200 => 3,
              byte (s.store.model m).header.retries, byte (s.store.model m).header.confirmThreshold,
              byte (s.store.model m).header.confirmSpread]
          ++ bytes 2 (s.store.model m).header.clearCount ++ bytes 2 (s.store.model m).header.bootAllowance
          ++ [byte (s.store.model m).header.strikeLimit, byte (s.store.model m).header.restTime,
              byte (s.store.model m).header.riseAllowance, byte (s.store.model m).header.sagAllowance,
              byte (s.store.model m).header.cycles, byte (s.store.model m).header.path,
              byte (s.store.model m).header.rail, byte (s.store.model m).header.hang,
              byte (s.store.model m).components.length, byte (s.store.model m).stages.length,
              byte (s.store.model m).programs[0].length, byte (s.store.model m).programs[1].length,
              byte (s.store.model m).programs[2].length, byte (s.store.model m).programs[3].length,
              byte need, byte (allSlots.filter fun k => (s.rack.slot k).record.any fun c => c.model == m).length]))) ∧
    (∀ (i : Byte) (x : Component), a.part = .component i → 1 ≤ i.toNat →
      (s.store.model m).components[i.toNat - 1]? = some x →
      exec (.modelRead (some a)) s = .next (s.answered .done
        ((x.designator ++ List.replicate 8 0).take 8
          ++ [match x.cls with
                | .memory => (0 : Byte) | .storage => 1 | .processor => 2 | .io => 3 | .power => 4 | .clock => 5 | .path => 6]
          ++ (match x.range with
              | none => [0, 0, 0, 0, 0, 0, 0, 0, 0]
              | some (first, last) =>
                1 :: (bytes 3 first.toNat ++ bytes 3 last.toNat ++ [1, byte x.waitClass]))))) ∧
    (∀ (i : Byte) (x : Stage), a.part = .stage i → 1 ≤ i.toNat →
      (s.store.model m).stages[i.toNat - 1]? = some x →
      exec (.modelRead (some a)) s = .next (s.answered .done
        (bytes 3 x.duration ++ [match x.margin with | .nominal => (0 : Byte) | .low => 1 | .high => 2, byte x.dutyA, byte x.dutyB]
          ++ bytes 2 x.halfPeriod ++ [byte x.units, byte x.program] ++ bytes 2 x.window))) ∧
    ∀ (i p : Byte) (q : Fin 4) (x : Step), a.part = .step i p → 1 ≤ i.toNat → p.toNat = q.val + 1 →
      (s.store.model m).programs[q][i.toNat - 1]? = some x →
      exec (.modelRead (some a)) s = .next (s.answered .done
        ([x.kind] ++ bytes 3 x.start.toNat ++ bytes 2 x.count
          ++ [x.pattern, x.value, x.mask, x.bound]))

def Obligations.LockAndClearWriteTheStore : Prop :=
  ((∀ (s : State) (a : ModelSlotArgs) (m : ModelIx),
    s.takesRequests → a.model.toNat = m.val + 1 → s.store.write = none →
    ((s.store.slots[m]).state = .valid →
      ∃ st : Store, exec (.modelLock (some a)) s = .next ((s.withStore st).answered .done []) ∧
        (st.slots[m]).state = .locked ∧ (st.slots[m]).lockMark = false ∧
        (st.slots[m]).model = (s.store.slots[m]).model ∧ st.write = some (.lockMark m) ∧
        st.staging = s.store.staging ∧ ∀ n : ModelIx, n ≠ m → st.slots[n] = s.store.slots[n]) ∧
    ((s.store.slots[m]).state ≠ .valid → exec (.modelLock (some a)) s = .next (s.answered .state []))) ∧
  ∀ (s : State) (m : ModelIx), s.quiet → s.store.write = some (.lockMark m) →
    ∃ st : Store, exec .lockWriteEnd s = .next (s.withStore st) ∧ st.write = none ∧
      st.slots[m] = { s.store.slots[m] with lockMark := true } ∧ st.staging = s.store.staging ∧
      ∀ n : ModelIx, n ≠ m → st.slots[n] = s.store.slots[n]) ∧
  ((∀ s : State, s.takesRequests →
    (s.store.write ≠ none → exec (.storeClear (some ⟨⟩)) s = .next (s.answered .busy [])) ∧
    (s.store.write = none → (∃ k, (s.rack.slot k).record.isSome = true) →
      exec (.storeClear (some ⟨⟩)) s = .next (s.answered .inUse [])) ∧
    (s.store.write = none → (∀ k, (s.rack.slot k).record = none) →
      exec (.storeClear (some ⟨⟩)) s =
        .next ((s.withStore { s.store with write := some (.clear 0 false) }).answered .accepted []))) ∧
  (∀ (s : State) (m : ModelIx), s.quiet → s.store.write = some (.clear m false) →
    ∃ st : Store, exec .storeClearSlotErase s = .next (s.withStore st) ∧
      st.slots[m] = ⟨.blank, .absent, false, (s.store.slots[m]).model⟩ ∧ st.write = some (.clear m true) ∧
      st.staging = s.store.staging ∧ ∀ n : ModelIx, n ≠ m → st.slots[n] = s.store.slots[n]) ∧
  ∀ (s : State) (m : ModelIx) (erased : Bool), s.quiet → s.store.write = some (.clear m true) →
    ∃ (st : Store) (r : Rack), exec (.storeClearSlotCheck erased) s = .next { s with store := st, rack := r } ∧
      (st.slots[m]).state = (if erased then (s.store.slots[m]).state else .damaged) ∧
      (∀ n : ModelIx, n ≠ m → st.slots[n] = s.store.slots[n]) ∧ st.staging = s.store.staging ∧
      r.slots = s.rack.slots ∧
      (∀ n : ModelIx, n.val = m.val + 1 → st.write = some (.clear n false) ∧ r = s.rack) ∧
      (m.val = 7 → st.write = none ∧
        ((∀ n : ModelIx, (st.slots[n]).state = .blank) → r.notices.flags = s.rack.notices.flags ||| 2) ∧
        ((∃ n : ModelIx, (st.slots[n]).state ≠ .blank) → r.notices.flags = s.rack.notices.flags ||| 4)))

def Obligations.TheStartupCheckReadsTheMarks : Prop :=
  ∀ (s : State) (bad : List ModelIx), s.quiet → s.port.rackState = .starting →
    ∃ st : Store, exec (.startupCheckEnd bad) s =
        .next { s with store := st, port := { s.port with rackState := .unset } } ∧
      st.staging = s.store.staging ∧ st.write = s.store.write ∧
      ∀ m : ModelIx, (st.slots[m]).progress = (s.store.slots[m]).progress ∧
        (st.slots[m]).lockMark = (s.store.slots[m]).lockMark ∧ (st.slots[m]).model = (s.store.slots[m]).model ∧
        (st.slots[m]).state =
          match (s.store.slots[m]).progress with
          | .absent => ModelSlotState.blank
          | .begun => .damaged
          | .complete => if m ∈ bad then .damaged else if (s.store.slots[m]).lockMark then .locked else .valid

/-! ## Stages, heat, quiesce and budget -/

def Obligations.HeaterTrimWritesTheIdleHolder : Prop :=
  ∀ (s : State) (a : TrimArgs) (k : SlotIx) (c : CaseRecord),
    s.takesRequests → a.slot.toNat = k.val + 1 → s.rack.inUse k = true → (s.rack.slot k).record = some c →
    a.duty.toNat ≤ 100 → c.state = .running ∨ c.state = .paused ∨ c.state = .waiting →
    ∃ (r : Rack) (y : Stay) (written : Byte),
      exec (.heaterTrim (some a)) s = .next ((s.withRack r).answered .done
        ([byte (k.val + 1), written, byte y.holderA, byte y.holderB, byte y.driving.code]
          ++ halfBytes (s.rack.slot k).stamp)) ∧
      r.slot k = { s.rack.slot k with record := some { c with stay := y } } ∧
      ((caseStage s.store c).halfPeriod = 0 ∨ c.stay.driving = .a →
        y = { c.stay with holderB := a.duty.toNat } ∧ written = 1) ∧
      ((caseStage s.store c).halfPeriod ≠ 0 → c.stay.driving = .b →
        y = { c.stay with holderA := a.duty.toNat } ∧ written = 0) ∧
      Rack.onlySlot k s.rack r ∧ r.notices = s.rack.notices

def Obligations.TheHeaterDrivesTheDrivingHolder : Prop :=
  (∀ (s : State) (k : SlotIx), s.quiet → s.rack.isGranted k = true →
    ∃ r : Rack, exec .rackTick s = .next (s.withRack r) ∧ r.heaterDuty k = s.rack.heaterDuty k ∧
      (r.slot k).stay.driving = (s.rack.slot k).stay.driving ∧
      (r.slot k).stay.alternation = (s.rack.slot k).stay.alternation) ∧
  ∀ (r : Rack) (k : SlotIx),
    (∀ c, (r.slot k).record = some c → c.state = .running → r.quiesce = .active →
      r.heaterDuty k = match c.stay.driving with | .a => c.stay.holderA | .b => c.stay.holderB) ∧
    (∀ c, (r.slot k).record = some c → c.state ≠ .running → r.heaterDuty k = 0) ∧
    (r.quiesce ≠ .active → r.heaterDuty k = 0) ∧
    ((r.slot k).record = none → r.heaterDuty k = 0) ∧
    (lookBody r k)[50]? = some (byte (r.heaterDuty k))

def Obligations.RackQuiesceStopsAtBoundaries : Prop :=
  ∀ s : State, s.takesRequests →
    (s.rack.quiesce ≠ .active →
      exec (.rackQuiesce (some ⟨⟩)) s = .next (s.answered .done [byte s.rack.quiesce.code])) ∧
    (s.rack.quiesce = .active →
      ((∀ k, s.rack.inUse k = true → s.rack.isIdle k = true) →
        exec (.rackQuiesce (some ⟨⟩)) s =
          .next ((s.withRack (Rack.noticeFlag { s.rack with quiesce := .quiesced } .quiesced)).answered .done [2])) ∧
      ((∃ k, s.rack.inUse k = true ∧ s.rack.isIdle k = false) →
        exec (.rackQuiesce (some ⟨⟩)) s =
          .next ((s.withRack { s.rack with quiesce := .quiescing }).answered .done [1])))

def Obligations.RackWakeReturnsToActive : Prop :=
  ∀ s : State, s.takesRequests →
    (s.rack.quiesce = .active → exec (.rackWake (some ⟨⟩)) s = .next (s.answered .done [0])) ∧
    (s.rack.quiesce ≠ .active →
      ∃ r : Rack, exec (.rackWake (some ⟨⟩)) s =
          .next ((State.withRack { s with freeCount := s.freeCount + 1 } r).answered .done [0]) ∧
        r.quiesce = .active ∧ r.budget = s.rack.budget ∧ r.bench = s.rack.bench ∧
        r.notices.flags = s.rack.notices.flags ∧
        (s.rack.queue = [] →
          (∀ k, (s.rack.slot k).stay.heldAdvance = true → (s.rack.slot k).caseState ≠ some .running) →
          ∀ k, r.slot k = (Rack.issue s.store { s.rack with quiesce := .active } k).slot k) ∧
        ∀ k c p, s.rack.advanceDue s.store k c p → c.state = .running → c.stay.heldAdvance = true →
          s.rack.isGranted k = false →
          (∀ j, j ≠ k → (s.rack.slot j).stay.heldAdvance = true → (s.rack.slot j).caseState ≠ some .running) →
          s.rack.advancedTo s.store r k c p)

def Obligations.BudgetLookReadsTheBudget : Prop :=
  (∀ s : State, s.listening →
    (s.port.rackState = .starting → exec (.budgetLook (some ⟨⟩)) s = .next (s.answered .starting [])) ∧
    (s.port.rackState = .unset → exec (.budgetLook (some ⟨⟩)) s = .next (s.answered .notSetUp []))) ∧
  ∀ s : State, s.takesRequests →
    exec (.budgetLook (some ⟨⟩)) s = .next (s.answered .done
      ([byte (s.rack.budget.getD 0), byte (allSlots.map fun k => (s.rack.slot k).units).sum,
        byte (s.rack.budget.getD 0 - (allSlots.map fun k => (s.rack.slot k).units).sum), byte s.rack.quiesce.code]
      ++ byte (allSlots.filter s.rack.inUse).length :: (allSlots.filter s.rack.inUse).map (fun k =>
          byte (s.rack.slot k).units)
      ++ byte s.rack.queue.length :: s.rack.queue.flatMap fun e =>
          [byte (e.slot.val + 1), byte (e.number.toNat / 256), byte e.number.toNat, byte e.need,
            byte e.priority.code, if e.throughRest then 0 else 1]))

/-! ## The tick and its expiries -/

def Obligations.ARackTickCounts : Prop :=
  (∀ s : State, s.quiet → s.port.rackState ≠ .set → exec .rackTick s = .next s) ∧
  ∀ s : State, s.quiet → s.port.rackState = .set →
    ∃ r : Rack, exec .rackTick s = .next (s.withRack r) ∧
      r.queue = s.rack.queue ∧ r.quiesce = s.rack.quiesce ∧ r.bench = s.rack.bench ∧ r.notices = s.rack.notices ∧
      ∀ k : SlotIx,
        (r.slot k).stamp = (s.rack.slot k).stamp ∧ (r.slot k).units = (s.rack.slot k).units ∧
        (r.slot k).line = (s.rack.slot k).line ∧ (r.slot k).rail.state = (s.rack.slot k).rail.state ∧
        (r.slot k).rail.margin = (s.rack.slot k).rail.margin ∧
        (r.slot k).seq = { (s.rack.slot k).seq with
          waitTickSeen := (s.rack.slot k).seq.waitTickSeen || (s.rack.slot k).seq.tickWait } ∧
        (∀ c, (s.rack.slot k).record = some c →
          c.state = .running ∧ s.rack.isGranted k = false ∧ s.rack.quiesce = .active →
          ∃ c', (r.slot k).record = some c' ∧ c'.state = .running ∧ c'.suspects = c.suspects ∧
            (c.stay.draining = false → c'.stay.elapsed = c.stay.elapsed + 1 ∧
              c'.stress = min (c.stress + 1) 4294967295) ∧
            (c.stay.draining = true → c'.stay.elapsed = c.stay.elapsed ∧ c'.stress = c.stress) ∧
            c'.stay.alternation =
              if (caseStage s.store c).halfPeriod = 0 then c.stay.alternation else c.stay.alternation + 1) ∧
        ((s.rack.slot k).caseState ≠ some .running ∨ s.rack.isGranted k = true ∨ s.rack.quiesce ≠ .active →
          (r.slot k).record = (s.rack.slot k).record) ∧
        ((s.rack.slot k).rail.state = .rising → (r.slot k).rail.rise = (s.rack.slot k).rail.rise + 1) ∧
        ((s.rack.slot k).rail.state = .sag → (r.slot k).rail.sag = (s.rack.slot k).rail.sag + 1) ∧
        (∀ n, (s.rack.slot k).caseState = some .resting → s.rack.quiesce = .active →
          (s.rack.slot k).rail.rest = some n → (r.slot k).rail.rest = some (n + 1)) ∧
        (∀ n, (s.rack.slot k).caseState = some .powering → s.rack.isGranted k = false →
          s.rack.quiesce = .active → (s.rack.slot k).watch.boot = some n → (r.slot k).watch.boot = some (n + 1)) ∧
        (∀ n, (s.rack.slot k).caseState = some .running ∨ (s.rack.slot k).caseState = some .paused ∨
            (s.rack.slot k).caseState = some .waiting → s.rack.isGranted k = false → s.rack.quiesce = .active →
          (s.rack.slot k).watch.beat = some n → (r.slot k).watch.beat = some (n + 1)) ∧
        ((s.rack.slot k).rail.state ≠ .rising → (r.slot k).rail.rise = (s.rack.slot k).rail.rise) ∧
        ((s.rack.slot k).rail.state ≠ .sag → (r.slot k).rail.sag = (s.rack.slot k).rail.sag) ∧
        ((s.rack.slot k).caseState ≠ some .resting ∨ s.rack.quiesce ≠ .active →
          (r.slot k).rail.rest = (s.rack.slot k).rail.rest) ∧
        ((s.rack.slot k).caseState ≠ some .powering ∨ s.rack.isGranted k = true ∨ s.rack.quiesce ≠ .active →
          (r.slot k).watch.boot = (s.rack.slot k).watch.boot) ∧
        ((s.rack.slot k).caseState ≠ some .running ∧ (s.rack.slot k).caseState ≠ some .paused ∧
            (s.rack.slot k).caseState ≠ some .waiting ∨ s.rack.isGranted k = true ∨ s.rack.quiesce ≠ .active →
          (r.slot k).watch.beat = (s.rack.slot k).watch.beat) ∧
        ((s.rack.slot k).watch.boot = none → (r.slot k).watch.boot = none) ∧
        ((s.rack.slot k).watch.beat = none → (r.slot k).watch.beat = none) ∧
        (r.slot k).watch.window = (s.rack.slot k).watch.window ∧
        (r.slot k).watch.lastSample = (s.rack.slot k).watch.lastSample

def Obligations.AStageMatchDrainsOrAdvances : Prop :=
  ∀ (s : State) (k : SlotIx) (c : CaseRecord),
    (s.rack.slot k).record = some c → c.state = .running → c.stay.draining = false →
    c.stay.elapsed = (caseStage s.store c).duration → s.rack.quiesce = .active → s.rack.bench.state = .idle →
    ((s.rack.slot k).line.exchange.isSome = true →
      ∃ r : Rack, exec (.stageTimerMatch k) s = .next (s.withRack r) ∧
        r.slot k = { s.rack.slot k with record := some { c with stay := { c.stay with draining := true } } } ∧
        Rack.onlySlot k s.rack r ∧ r.notices = s.rack.notices) ∧
    ∀ (judged : Rack) (d : CaseRecord) (start : Nat),
      (s.rack.slot k).atBoundary = true → (s.rack.slot k).seq.mode = .program →
      Rack.leavesStay s.store s.rack judged k c → (judged.slot k).record = some d →
      start = (match (s.rack.slot k).watch.beat with
        | none => 0
        | some n => if (s.rack.slot k).watch.window ≤ n then 1 else 0) →
      (∀ p, (caseModel s.store c).nextPosition c.stay.position = some p →
        ((caseModel s.store c).stage p.stage).units = 0 ∨
          s.rack.queue = [] ∧ ((caseModel s.store c).stage p.stage).units ≤ (s.rack.setUnits k 0).freeUnits →
        s.rack.queue = [] →
        ∃ r : Rack, exec (.stageTimerMatch k) s = .next (s.withRack r) ∧
          (r.slot k).record = some { d with stay := Stay.begin p ((caseModel s.store c).stage p.stage) } ∧
          (r.slot k).units = ((caseModel s.store c).stage p.stage).units ∧
          (r.slot k).stamp = (judged.slot k).stamp ∧
          (r.slot k).rail = Rail.newMargin ((caseModel s.store c).stage p.stage).margin (s.rack.slot k).rail ∧
          Watch.armedFrom ((caseModel s.store c).stage p.stage).window start (s.rack.slot k).watch
            (r.slot k).watch ∧
          (r.slot k).seq.mode = .program ∧ (r.slot k).seq.step = 1 ∧ (r.slot k).seq.index = 0 ∧
          Rack.onlySlot k s.rack r ∧ r.notices = s.rack.notices) ∧
      (∀ (p : Position) (need : Nat) (entry : QueueEntry) (joined : List QueueEntry),
        (caseModel s.store c).nextPosition c.stay.position = some p →
        need = ((caseModel s.store c).stage p.stage).units → need ≠ 0 →
        entry = ⟨k, c.number, need, c.priority, false⟩ →
        (c.priority = .normal → joined = s.rack.queue ++ [entry]) →
        (c.priority = .rush → joined = s.rack.queue.filter (fun e => e.priority = .rush) ++
          entry :: s.rack.queue.filter (fun e => e.priority = .normal)) →
        (s.rack.queue = [] → (s.rack.setUnits k 0).freeUnits < need) →
        (∀ e rest, joined = e :: rest → (s.rack.setUnits k 0).freeUnits < e.need) →
        ∃ r : Rack, exec (.stageTimerMatch k) s = .next (s.withRack r) ∧
          (r.slot k).record = some { d with
            state := .waiting, stay := Stay.begin p ((caseModel s.store c).stage p.stage) } ∧
          (r.slot k).units = 0 ∧ (r.slot k).stamp = (judged.slot k).stamp + 1 ∧ r.queue = joined ∧
          (r.slot k).rail = Rail.newMargin ((caseModel s.store c).stage p.stage).margin (s.rack.slot k).rail ∧
          Watch.armedFrom ((caseModel s.store c).stage p.stage).window start (s.rack.slot k).watch
            (r.slot k).watch ∧
          (r.slot k).seq.mode = .off ∧ (∀ j, j ≠ k → r.slot j = s.rack.slot j) ∧
          r.notices = (s.rack.noticeSlot k).notices) ∧
      ((caseModel s.store c).nextPosition c.stay.position = none →
        ∃ r : Rack, exec (.stageTimerMatch k) s = .next (s.withRack r) ∧
          (r.slot k).record = some { d with
            state := .done .complete (verdictOf d.suspects), stay := { c.stay with
              draining := false, heldAdvance := false } } ∧
          (r.slot k).units = 0 ∧ (r.slot k).stamp = (judged.slot k).stamp + 1 ∧
          (r.slot k).rail.state.isOn = false ∧ (r.slot k).seq.mode = .off ∧
          (r.slot k).watch.beat = none ∧ (r.slot k).watch.boot = none ∧
          Rack.slotAndGrants k s.rack r ∧ r.notices.hasSlot k = true)

def Obligations.ExpiriesSwitchHeatersAndEndRests : Prop :=
  (∀ (s : State) (k : SlotIx) (c : CaseRecord),
    (s.rack.slot k).record = some c → (caseStage s.store c).halfPeriod ≠ 0 →
    c.stay.alternation = (caseStage s.store c).halfPeriod →
    ∃ r : Rack, exec (.heaterSwitch k) s = .next (s.withRack r) ∧
      r.slot k = { s.rack.slot k with record := some { c with stay := { c.stay with
        driving := (match c.stay.driving with | .a => .b | .b => .a), alternation := 0 } } } ∧
      Rack.onlySlot k s.rack r ∧ r.notices = s.rack.notices) ∧
  (∀ (s : State) (k : SlotIx) (c : CaseRecord),
    (s.rack.slot k).record = some c → c.state = .resting →
    (s.rack.slot k).rail.rest = some (caseModel s.store c).header.restTime →
    ∃ r : Rack, exec (.restEnd k) s = .next (s.withRack r) ∧
      r.slot k = { s.rack.slot k with
        record := some { c with state := .powering }
        stamp := (s.rack.slot k).stamp + 1
        rail := ⟨.rising, (caseStage s.store c).margin, 0, 0, none⟩ } ∧
      Rack.onlySlot k s.rack r ∧ r.notices = (s.rack.noticeSlot k).notices)

def Obligations.AnAllowanceThatRunsOutTrips : Prop :=
  ∀ (s : State) (k : SlotIx) (c : CaseRecord) (i : Instr) (judged : Rack),
    (s.rack.slot k).record = some c →
    c.state = .powering ∨ c.state = .running ∨ c.state = .paused ∨ c.state = .waiting →
    (i = .riseAllowanceExpiry k ∧ (s.rack.slot k).rail.state = .rising ∧
        (s.rack.slot k).rail.rise = (caseModel s.store c).header.riseAllowance ∧
        judged = s.rack.failNow s.store k (caseModel s.store c).header.rail .norise ∨
      i = .sagAllowanceExpiry k ∧ (s.rack.slot k).rail.state = .sag ∧
        (s.rack.slot k).rail.sag = (caseModel s.store c).header.sagAllowance ∧
        judged = s.rack.failNow s.store k (caseModel s.store c).header.rail .trip) →
    ∃ (r : Rack) (c' : CaseRecord), exec i s = .next (s.withRack r) ∧ (r.slot k).record = some c' ∧
      c'.state = .faulted .rail ∧ c'.tripCount = min (c.tripCount + 1) 255 ∧ c'.stay.railClean = false ∧
      c'.stay.position = c.stay.position ∧ c'.stay.elapsed = c.stay.elapsed ∧ c'.stay.draining = c.stay.draining ∧
      c'.sagCount = c.sagCount ∧ c'.stress = c.stress ∧
      (r.slot k).rail.state = .tripped ∧ (r.slot k).rail.rise = 0 ∧ (r.slot k).rail.sag = 0 ∧
      (r.slot k).units = 0 ∧ r.queued k = false ∧ (r.slot k).line.exchange = none ∧ (r.slot k).line.sure = false ∧
      (r.slot k).seq.mode = .off ∧ (r.slot k).watch.beat = none ∧ (r.slot k).watch.boot = none ∧
      Rack.samePool judged r ∧ (r.slot k).stamp = (judged.slot k).stamp + 1 ∧ r.notices.hasSlot k = true ∧
      (s.rack.isPending k = true → r.bench.state = .granted k ∧ (r.slot k).line.state = .passed)

def Obligations.HangsAndBootFailuresRestOrFault : Prop :=
  ∀ (s : State) (k : SlotIx) (c : CaseRecord) (i : Instr) (judged : Rack),
    (s.rack.slot k).record = some c →
    (i = .hang k ∧ (c.state = .running ∨ c.state = .paused ∨
        c.state = .waiting ∧ (s.rack.slot k).rail.state.isOn = true) ∧
        (s.rack.slot k).watch.beat = some (s.rack.slot k).watch.window ∧
        judged = s.rack.failNow s.store k (caseModel s.store c).header.hang .hang ∨
      i = .bootFailure k ∧ c.state = .powering ∧
        (s.rack.slot k).watch.boot = some (caseModel s.store c).header.bootAllowance ∧
        judged = s.rack.failNow s.store k (caseModel s.store c).header.hang .noboot) →
    ∃ (r : Rack) (c' : CaseRecord), exec i s = .next (s.withRack r) ∧ (r.slot k).record = some c' ∧
      c'.stay.hangClean = false ∧ c'.stay.position = c.stay.position ∧ c'.stay.draining = c.stay.draining ∧
      (r.slot k).line.exchange = none ∧ (r.slot k).seq.mode = .off ∧ (r.slot k).rail.state.isOn = false ∧
      (r.slot k).watch.beat = none ∧ (r.slot k).watch.boot = none ∧
      Rack.samePool judged r ∧ (r.slot k).stamp = (judged.slot k).stamp + 1 ∧ r.notices.hasSlot k = true ∧
      (s.rack.isPending k = true → r.bench.state = .granted k ∧ (r.slot k).line.state = .passed) ∧
      (c.strikes + 1 ≤ (caseModel s.store c).header.strikeLimit →
        c'.state = .resting ∧ c'.strikes = c.strikes + 1 ∧ (r.slot k).rail.rest = some 0 ∧
        (r.slot k).units = (s.rack.slot k).units) ∧
      ((caseModel s.store c).header.strikeLimit < c.strikes + 1 →
        c'.state = .faulted .hang ∧ c'.strikes = min (c.strikes + 1) 15 ∧ (r.slot k).units = 0 ∧
        r.queued k = false)

def Obligations.TheTickWaitEndsInAHail : Prop :=
  ∀ (s : State) (k : SlotIx) (c : CaseRecord),
    (s.rack.slot k).record = some c → c.state = .powering → (s.rack.slot k).seq.mode = .hail →
    (s.rack.slot k).seq.tickWait = true → (s.rack.slot k).seq.waitTickSeen = true →
    (s.rack.slot k).line.exchange = none → (s.rack.slot k).line.state = .idle →
    s.rack.quiesce = .active → s.rack.bench.state = .idle →
    ∃ r : Rack, exec (.hailTickWaitEnd k) s = .next (s.withRack r) ∧
      (r.slot k).seq.tickWait = false ∧ (r.slot k).line.state = .send ∧
      (r.slot k).line.exchange = some ⟨.hail, 0, 1, if (s.rack.slot k).line.lastEnd = .within then 0 else 1, []⟩ ∧
      (r.slot k).record = some c ∧ (r.slot k).rail = (s.rack.slot k).rail ∧
      Rack.onlySlot k s.rack r ∧ r.notices = s.rack.notices

/-! ## Rails, latches and the heartbeat -/

def Obligations.ScansJudgeTheRail : Prop :=
  (∀ (s : State) (k : SlotIx) (uv : Nat), s.quiet → s.rack.inUse k = true →
    ((s.rack.slot k).rail.state = .off ∨ (s.rack.slot k).rail.state = .tripped →
      ∀ oc, exec (.railScan k uv oc) s = .next s) ∧
    ((s.rack.slot k).rail.state = .rising → railLevel (s.rack.slot k).rail.margin uv < 950 →
      exec (.railScan k uv false) s = .next s) ∧
    ((s.rack.slot k).rail.state = .good → 920 ≤ railLevel (s.rack.slot k).rail.margin uv →
      exec (.railScan k uv false) s = .next s) ∧
    ((s.rack.slot k).rail.state = .sag → 850 ≤ railLevel (s.rack.slot k).rail.margin uv →
      railLevel (s.rack.slot k).rail.margin uv < 950 → exec (.railScan k uv false) s = .next s) ∧
    ((s.rack.slot k).rail.state = .rising ∨ (s.rack.slot k).rail.state = .sag →
      950 ≤ railLevel (s.rack.slot k).rail.margin uv →
      ((s.rack.slot k).caseState ≠ some .powering ∨ (s.rack.slot k).seq.mode ≠ .off →
        ∃ r : Rack, exec (.railScan k uv false) s = .next (s.withRack r) ∧
          r.slot k = { s.rack.slot k with
            rail := { (s.rack.slot k).rail with state := .good, rise := 0, sag := 0 } } ∧
          Rack.onlySlot k s.rack r ∧ r.notices = s.rack.notices) ∧
      ∀ c, (s.rack.slot k).record = some c → c.state = .powering → (s.rack.slot k).seq.mode = .off →
        (s.rack.slot k).seq.tickWait = false → (s.rack.slot k).line.exchange = none →
        s.rack.isPending k = false → (s.rack.isGranted k = false → (s.rack.slot k).line.state = .idle) →
        ∃ r : Rack, exec (.railScan k uv false) s = .next (s.withRack r) ∧
          (r.slot k).record = some c ∧ (r.slot k).stamp = (s.rack.slot k).stamp ∧
          (r.slot k).rail = { (s.rack.slot k).rail with state := .good, rise := 0, sag := 0 } ∧
          (r.slot k).seq = { (s.rack.slot k).seq with mode := .hail } ∧
          (r.slot k).watch = { (s.rack.slot k).watch with boot := some 0 } ∧
          (s.rack.isGranted k = false → s.rack.quiesce = .active →
            (r.slot k).line = { (s.rack.slot k).line with
              state := .send
              exchange := some ⟨.hail, 0, 1, if (s.rack.slot k).line.lastEnd = .within then 0 else 1, []⟩ }) ∧
          (s.rack.isGranted k = true ∨ s.rack.quiesce ≠ .active → (r.slot k).line = (s.rack.slot k).line) ∧
          ∀ j, j ≠ k → s.rack.isPending j = false → r.slot j = s.rack.slot j)) ∧
  (∀ (s : State) (k : SlotIx) (c : CaseRecord) (uv : Nat),
    s.quiet → s.rack.inUse k = true → (s.rack.slot k).record = some c →
    c.state = .powering ∨ c.state = .running ∨ c.state = .paused ∨ c.state = .waiting →
    ((s.rack.slot k).rail.state = .good → railLevel (s.rack.slot k).rail.margin uv < 920 →
      ∃ (r judged : Rack) (d : CaseRecord), exec (.railScan k uv false) s = .next (s.withRack r) ∧
        judged = s.rack.failNow s.store k (caseModel s.store c).header.rail .sag ∧ (judged.slot k).record = some d ∧
        r.slot k = { judged.slot k with
          record := some { d with
            sagCount := min (c.sagCount + 1) 65535, stay := { c.stay with railClean := false } }
          rail := { (s.rack.slot k).rail with state := .sag, sag := 0 } } ∧
        (∀ j, j ≠ k → r.slot j = judged.slot j) ∧ r.queue = s.rack.queue ∧ r.notices = judged.notices) ∧
    ∀ oc, (s.rack.slot k).rail.state.isOn = true →
      (oc = true ∨ (s.rack.slot k).rail.state = .sag ∧ railLevel (s.rack.slot k).rail.margin uv < 850) →
      ∃ (r : Rack) (c' : CaseRecord), exec (.railScan k uv oc) s = .next (s.withRack r) ∧
        (r.slot k).record = some c' ∧ c'.state = .faulted .rail ∧ c'.tripCount = min (c.tripCount + 1) 255 ∧
        (r.slot k).rail.state = .tripped ∧ (r.slot k).units = 0 ∧
        Rack.samePool (s.rack.failNow s.store k (caseModel s.store c).header.rail .trip) r ∧
        (r.slot k).stamp =
          ((s.rack.failNow s.store k (caseModel s.store c).header.rail .trip).slot k).stamp + 1 ∧
        r.notices.hasSlot k = true) ∧
  (∀ uv : Nat, uv ≤ 1200000 →
    (950 ≤ railLevel .nominal uv ↔ 950000 ≤ uv) ∧ (920 ≤ railLevel .nominal uv ↔ 920000 ≤ uv) ∧
    (850 ≤ railLevel .nominal uv ↔ 850000 ≤ uv) ∧
    (950 ≤ railLevel .low uv ↔ 902500 ≤ uv) ∧ (920 ≤ railLevel .low uv ↔ 874000 ≤ uv) ∧
    (850 ≤ railLevel .low uv ↔ 807500 ≤ uv) ∧
    (950 ≤ railLevel .high uv ↔ 997500 ≤ uv) ∧ (920 ≤ railLevel .high uv ↔ 966000 ≤ uv) ∧
    (850 ≤ railLevel .high uv ↔ 892500 ≤ uv))

def Obligations.LatchesPullAndSeat : Prop :=
  (∀ (s : State) (k : SlotIx), s.quiet →
    (s.rack.inUse k = false → exec (.latchOpen k) s = .next s ∧ exec (.latchClose k) s = .next s) ∧
    ∀ (i : Instr) (closed : Bool), s.rack.inUse k = true →
      i = .latchOpen k ∧ closed = false ∨ i = .latchClose k ∧ closed = true →
      ((s.rack.slot k).latchClosed = closed →
        ∃ r : Rack, exec i s = .next (s.withRack r) ∧ r.slot k = { s.rack.slot k with latchCount := 0 } ∧
          Rack.onlySlot k s.rack r ∧ r.notices = s.rack.notices) ∧
      ((s.rack.slot k).latchClosed = !closed → (s.rack.slot k).latchCount < 19 →
        ∃ r : Rack, exec i s = .next (s.withRack r) ∧
          r.slot k = { s.rack.slot k with latchCount := (s.rack.slot k).latchCount + 1 } ∧
          Rack.onlySlot k s.rack r ∧ r.notices = s.rack.notices)) ∧
  (∀ (s : State) (k : SlotIx), s.quiet → s.rack.inUse k = true → (s.rack.slot k).latchClosed = true →
    (s.rack.slot k).latchCount = 19 →
    ((s.rack.slot k).inRun = false →
      ∃ r : Rack, exec (.latchOpen k) s = .next (s.withRack r) ∧
        r.slot k = { s.rack.slot k with latchClosed := false, latchCount := 0 } ∧ Rack.onlySlot k s.rack r ∧
        r.notices = (s.rack.noticeSlot k).notices) ∧
    ∀ c, (s.rack.slot k).record = some c → c.state.inRun = true →
      ∃ r : Rack, exec (.latchOpen k) s = .next (s.withRack r) ∧
        (r.slot k).latchClosed = false ∧ (r.slot k).latchCount = 0 ∧
        (r.slot k).record = some { c with state := .pulled } ∧
        (r.slot k).stamp = (s.rack.slot k).stamp + 1 ∧ (r.slot k).units = 0 ∧ r.queued k = false ∧
        (r.slot k).rail.state.isOn = false ∧ (r.slot k).rail.rest = none ∧ (r.slot k).line.exchange = none ∧
        (r.slot k).seq.mode = .off ∧ (r.slot k).watch.beat = none ∧ (r.slot k).watch.boot = none ∧
        Rack.slotAndGrants k s.rack r ∧ r.notices.hasSlot k = true ∧
        (s.rack.isPending k = true → r.bench.state = .granted k ∧ (r.slot k).line.state = .passed)) ∧
  (∀ (s : State) (k : SlotIx), s.quiet → s.rack.inUse k = true → (s.rack.slot k).latchClosed = false →
    (s.rack.slot k).latchCount = 19 →
    ∃ r : Rack, exec (.latchClose k) s = .next (s.withRack r) ∧ Rack.onlySlot k s.rack r ∧
      r.notices = (s.rack.noticeSlot k).notices ∧
      ((s.rack.slot k).caseState ≠ some .pulled →
        r.slot k = { s.rack.slot k with latchClosed := true, latchCount := 0 }) ∧
      ∀ c, (s.rack.slot k).record = some c → c.state = .pulled →
        r.slot k = { s.rack.slot k with
          latchClosed := true
          latchCount := 0
          record := some { c with
            state := .ready, stay := Stay.begin c.stay.position (caseStage s.store c) }
          stamp := (s.rack.slot k).stamp + 1 })

def Obligations.AHeartbeatEdgeRestartsTheBeatCounter : Prop :=
  ∀ (s : State) (k : SlotIx) (level : Bool), s.quiet → s.rack.inUse k = true →
    ∃ r : Rack, exec (.heartbeatEdge k level) s = .next (s.withRack r) ∧ Rack.onlySlot k s.rack r ∧
      r.notices = s.rack.notices ∧
      r.slot k = { s.rack.slot k with watch := (r.slot k).watch } ∧
      (r.slot k).watch.lastSample = some level ∧ (r.slot k).watch.window = (s.rack.slot k).watch.window ∧
      (r.slot k).watch.boot = (s.rack.slot k).watch.boot ∧
      (r.slot k).watch.beat =
        if (s.rack.slot k).watch.lastSample = some !level then (s.rack.slot k).watch.beat.map fun _ => 0
        else (s.rack.slot k).watch.beat

/-! ## The bench port -/

def Obligations.AHoldIsGrantedAtABoundaryAndLetGo : Prop :=
  (∀ (limit count : Nat) (level sample : Bool),
    (sample = level → debounce limit level count sample = (level, 0)) ∧
    (sample ≠ level → count + 1 < limit → debounce limit level count sample = (level, count + 1)) ∧
    (sample ≠ level → limit ≤ count + 1 → debounce limit level count sample = (sample, 0))) ∧
  (∀ (s : State) (i : Instr) (k : SlotIx) (high seized : Bool) (b : Bench),
    s.quiet → benchRow i = some (k, high, seized) →
    b = { s.rack.bench with
      hold := (debounce 5 s.rack.bench.hold s.rack.bench.holdCount high).1
      holdCount := (debounce 5 s.rack.bench.hold s.rack.bench.holdCount high).2
      seize := (debounce 5 s.rack.bench.seize s.rack.bench.seizeCount seized).1
      seizeCount := (debounce 5 s.rack.bench.seize s.rack.bench.seizeCount seized).2 } →
    ∃ r : Rack, exec i s = .next (s.withRack r) ∧ r.bench = { b with state := r.bench.state } ∧
      (s.rack.bench.state = .idle → s.rack.inUse k = false ∨ b.hold = false ∧ b.seize = false →
        r = { s.rack with bench := b }) ∧
      (∀ j, s.rack.bench.state = .pending j → b.hold = true ∨ b.seize = true →
        s.rack.bench.seize = true ∨ b.seize = false ∨ k ≠ j → r = { s.rack with bench := b }) ∧
      (∀ j, s.rack.bench.state = .granted j → b.hold = true ∨ b.seize = true → r = { s.rack with bench := b }) ∧
      (s.rack.bench.state = .idle → s.rack.inUse k = true → b.hold = true → b.seize = false →
        (∀ j, j ≠ k → r.slot j = s.rack.slot j) ∧ (r.slot k).record = (s.rack.slot k).record ∧
        (r.slot k).stamp = (s.rack.slot k).stamp ∧ r.queue = s.rack.queue ∧ r.quiesce = s.rack.quiesce ∧
        ((s.rack.slot k).atBoundary = true →
          r.bench.state = .granted k ∧ r.bgrant = true ∧ r.isGranted k = true ∧ (r.slot k).line.state = .passed ∧
          (r.slot k).line.sure = false ∧ (r.stopReasons k).grant = true ∧
          r.notices = (s.rack.noticeSlot k).notices) ∧
        ((s.rack.slot k).atBoundary = false →
          r.bench.state = .pending k ∧ r.bgrant = false ∧ (r.stopReasons k).hold = true ∧
          r.slot k = s.rack.slot k ∧ r.notices = s.rack.notices)) ∧
      (∀ j, s.rack.bench.state = .pending j → b.hold = false → b.seize = false →
        (s.rack.slot j).line.exchange.isSome = true →
        r.bench.state = .idle ∧ r.slots = s.rack.slots ∧ r.notices.slots = s.rack.notices.slots) ∧
      (∀ j, s.rack.bench.state = .granted j → b.hold = false → b.seize = false →
        (s.rack.slot j).line.state = .passed →
        r.bench.state = .idle ∧ r.bgrant = false ∧ (r.slot j).line.sure = false ∧ r.notices.hasSlot j = true ∧
        ((s.rack.slot j).stay.draining = false →
          (r.slot j).record = (s.rack.slot j).record ∧ (r.slot j).stamp = (s.rack.slot j).stamp ∧
          (r.slot j).line.lastEnd = .within ∧
          ((s.rack.slot j).seq.mode = .off → (r.slot j).line.state = .idle ∧ (r.slot j).seq = (s.rack.slot j).seq) ∧
          r.notices.slots = s.rack.notices.slots ||| BitVec.twoPow 16 j.val ∧
          ∀ l, l ≠ j → r.slot l = s.rack.slot l) ∧
        ∀ c p, s.rack.advanceDue s.store j c p → c.state = .running → s.rack.quiesce = .active →
          s.rack.advancedTo s.store r j c p)) ∧
  ∀ (r : Rack) (k : SlotIx) (i : Nat) (boardLow stationLow : Bool) (boards : SlotIx → Bool),
    (r.bench.state = .granted k →
      r.passSwitch = some k ∧ r.bgrant = true ∧
      r.snsLevel k i boardLow stationLow = (r.slot k).line.level i (boardLow || stationLow) ∧
      r.bsnsLevel i boards stationLow = some ((r.slot k).line.level i (boards k || stationLow)) ∧
      ((r.slot k).line.state = .passed → r.snsLevel k i boardLow stationLow = !(boardLow || stationLow))) ∧
    (r.bench.state ≠ .granted k →
      r.passSwitch ≠ some k ∧ r.snsLevel k i boardLow stationLow = (r.slot k).line.level i boardLow) ∧
    ((∀ j, r.bench.state ≠ .granted j) →
      r.passSwitch = none ∧ r.bgrant = false ∧ r.bsnsLevel i boards stationLow = none)

def Obligations.ASeizeTakesTheLineAtOnce : Prop :=
  ∀ (s : State) (k : SlotIx) (high : Bool), s.quiet → s.rack.inUse k = true →
    s.rack.bench.state = .idle ∧ (s.rack.bench.seize = true ∨ s.rack.bench.seizeCount = 4) ∨
      s.rack.bench.state = .pending k ∧ s.rack.bench.seize = false ∧ s.rack.bench.seizeCount = 4 →
    ∃ r : Rack, exec (.benchSeize k high) s = .next (s.withRack r) ∧
      r.bench.state = .granted k ∧ r.bench.seize = true ∧ r.bench.seizeCount = 0 ∧ (r.slot k).line.state = .passed ∧
      (r.slot k).line.sure = false ∧
      ((s.rack.slot k).stay.draining = false ∨ (s.rack.slot k).seq.mode ≠ .program ∨
          (s.rack.slot k).line.exchange = none ∧ (s.rack.slot k).seq.runStart ≠ none →
        (r.slot k).record = (s.rack.slot k).record) ∧
      (∀ c, (s.rack.slot k).record = some c → c.stay.draining = true → (s.rack.slot k).seq.mode = .program →
        (s.rack.slot k).line.exchange.isSome = true ∨ (s.rack.slot k).seq.runStart = none →
        (r.slot k).record = some { c with stay := { c.stay with heldAdvance := true } }) ∧
      (s.rack.quiesce = .quiescing → (∀ j, j ≠ k → s.rack.inUse j = true → s.rack.isIdle j = true) →
        r.quiesce = .quiesced ∧ r.notices.flags = s.rack.notices.flags ||| 1) ∧
      (r.slot k).stamp = (s.rack.slot k).stamp ∧
      (r.slot k).seq.mode = (s.rack.slot k).seq.mode ∧ (r.slot k).seq.tickWait = (s.rack.slot k).seq.tickWait ∧
      ((s.rack.slot k).line.exchange.isSome = true →
        (r.slot k).line.exchange = none ∧ (r.slot k).line.lastEnd = .within ∧
        (r.slot k).seq.runStart = none ∧ (r.slot k).seq.lastExchange = none ∧
        (∀ n, (s.rack.slot k).seq.runStart = some n → (r.slot k).seq.step = n ∧ (r.slot k).seq.index = 0) ∧
        ((s.rack.slot k).seq.runStart = none → (r.slot k).seq.step = (s.rack.slot k).seq.step ∧
          (r.slot k).seq.index = (s.rack.slot k).seq.index)) ∧
      ((s.rack.slot k).line.exchange = none →
        r.slot k = { s.rack.slot k with
          record := (r.slot k).record
          line := { (s.rack.slot k).line with state := .passed, sure := false } }) ∧
      r.notices.slots = s.rack.notices.slots ||| BitVec.twoPow 16 k.val ∧
      ∀ j, j ≠ k → r.slot j = s.rack.slot j

/-! ## The sense line -/

def Obligations.CharactersGoOutByEcho : Prop :=
  (∀ (s : State) (k : SlotIx) (x : Exchange) (sent : Byte),
    s.quiet → (s.rack.slot k).line.state = .send → (s.rack.slot k).line.exchange = some x →
    (x.sent = 0 → ∃ r : Rack, exec (.exchangeSpacingEnd k) s = .next (s.withRack r) ∧
      r.slot k = { s.rack.slot k with line := { (s.rack.slot k).line with
        exchange := some { x with sent := 1 }
        lastEnd := if (s.rack.slot k).line.lastEnd = .within then .passed else (s.rack.slot k).line.lastEnd } } ∧
      Rack.onlySlot k s.rack r ∧ r.notices = s.rack.notices) ∧
    (∀ looks, 1 ≤ x.sent → x.probe.chars[x.sent - 1]? = some sent →
      receive looks = some ⟨sent, evenParity sent, true⟩ →
      (x.sent < x.probe.chars.length →
        ∃ r : Rack, exec (.echoReceived k looks) s = .next (s.withRack r) ∧
          r.slot k = { s.rack.slot k with line := { (s.rack.slot k).line with
            exchange := some { x with sent := x.sent + 1 } } } ∧
          Rack.onlySlot k s.rack r ∧ r.notices = s.rack.notices) ∧
      (x.sent = x.probe.chars.length → 0 < x.probe.replies →
        ∃ r : Rack, exec (.echoReceived k looks) s = .next (s.withRack r) ∧
          r.slot k = { s.rack.slot k with line := { (s.rack.slot k).line with state := .reply } } ∧
          Rack.onlySlot k s.rack r ∧ r.notices = s.rack.notices))) ∧
  (∀ (s : State) (k : SlotIx) (looks : List Bool), s.quiet →
    (receive looks = none →
      exec (.echoReceived k looks) s = .next s ∧ exec (.replyByteReceived k looks) s = .next s) ∧
    ((s.rack.slot k).line.state ≠ .send → exec (.echoReceived k looks) s = .next s) ∧
    ((s.rack.slot k).line.state ≠ .reply → exec (.replyByteReceived k looks) s = .next s)) ∧
  (∀ (s : State) (k : SlotIx) (looks : List Bool), s.quiet →
    (s.rack.slot k).line.state = .idle ∨ (s.rack.slot k).line.state = .breaking ∨
      (s.rack.slot k).line.state = .settle ∨ (s.rack.slot k).line.state = .passed →
    exec (.strayCharacter k looks) s = .next s) ∧
  (∀ b : Byte, (charBits b).length = 11 ∧ (charBits b)[0]? = some false ∧
    (∀ i, i < 8 → (charBits b)[i + 1]? = some (b.getLsbD i)) ∧ (charBits b)[9]? = some (evenParity b) ∧
    (charBits b)[10]? = some true ∧ (((charBits b).drop 1).take 9).count true % 2 = 0 ∧
    ∀ later, receive (true :: false :: (charBits b ++ later)) = some ⟨b, evenParity b, true⟩) ∧
  (∀ looks : List Bool,
    receive (false :: looks) = receive looks ∧ receive (true :: true :: looks) = receive (true :: looks) ∧
    receive (true :: false :: true :: looks) = receive (true :: looks) ∧
    (looks.length < 10 → receive (true :: false :: false :: looks) = none) ∧
    (10 ≤ looks.length → ∃ char, receive (true :: false :: false :: looks) = some char ∧
      (∀ i, i < 8 → looks[i]? = some (char.data.getLsbD i)) ∧ looks[8]? = some char.parity ∧
      looks[9]? = some char.stop)) ∧
  receive [] = none ∧ receive [true] = none ∧ receive [true, false] = none ∧
  ∀ (l : Line) (i : Nat) (boardLow : Bool), l.level i true = false ∧
    (l.state = .idle ∨ l.state = .reply ∨ l.state = .settle ∨ l.state = .passed → l.level i boardLow = !boardLow) ∧
    (l.state = .breaking → (i < 22 → l.level i boardLow = false) ∧ (22 ≤ i → l.level i boardLow = !boardLow)) ∧
    ∀ x, l.state = .send → l.exchange = some x →
      (x.sent = 0 ∨ 11 ≤ i → l.level i boardLow = !boardLow) ∧
      ∀ b bit, 1 ≤ x.sent → x.probe.chars[x.sent - 1]? = some b → (charBits b)[i]? = some bit →
        l.level i false = bit

def Obligations.AFailedAttemptAccusesAndBreaks : Prop :=
  (∀ (s : State) (k : SlotIx) (c : CaseRecord) (x : Exchange) (i : Instr) (sent : Byte) (char : LineChar)
    (looks : List Bool),
    s.quiet → receive looks = some char → (s.rack.slot k).record = some c →
    (s.rack.slot k).line.exchange = some x →
    ((s.rack.slot k).line.state = .send ∧ 1 ≤ x.sent ∧ x.probe.chars[x.sent - 1]? = some sent ∧
        (i = .echoTimeout k ∨ i = .echoReceived k looks ∧
          (char.data ≠ sent ∨ char.parity ≠ evenParity sent ∨ char.stop = false)) ∨
      (s.rack.slot k).line.state = .reply ∧
        (i = .replyTimeout k ∨ i = .replyByteReceived k looks ∧
          (char.parity ≠ evenParity char.data ∨ char.stop = false))) →
    ∃ (r : Rack) (symptom : Symptom) (component : Nat), exec i s = .next (s.withRack r) ∧
      (r.slot k).line = { (s.rack.slot k).line with state := .breaking, sure := false } ∧
      (r.slot k).seq = (s.rack.slot k).seq ∧ (r.slot k).units = (s.rack.slot k).units ∧
      r = (s.rack.failNow s.store k component symptom).modLine k
        (fun l => { l with state := .breaking, sure := false }) ∧
      ((s.rack.slot k).line.state = .send → symptom = .noecho) ∧
      ((s.rack.slot k).line.state = .reply →
        symptom = if i = .replyTimeout k then Symptom.silent else Symptom.parity) ∧
      (symptom = .noecho ∨ x.probe = .hail → component = (caseModel s.store c).header.path) ∧
      ∀ asked sent t, x.probe = .peek asked sent t → symptom ≠ .noecho →
        (∀ n w, (caseModel s.store c).lookup t = some (n, w) → component = n) ∧
        ((caseModel s.store c).lookup t = none → component = (caseModel s.store c).header.path)) ∧
  ∀ (x : Exchange) (retries : Nat) (result : ExchangeResult),
    (x.record retries result).result = result ∧ (x.record retries result).attempt = x.attempt ∧
    (x.record retries result).target = x.probe.target? ∧
    ((x.record retries result).final = true ↔ result = .ok ∨ result = .aborted ∨ 1 + retries ≤ x.attempt) ∧
    (x.record retries .noecho).place = some x.sent ∧ x.probe.chars.length ≤ 5 ∧
    (x.probe = .hail → (x.record retries .parity).place = some (x.returned.length + 1) ∧
      (x.record retries .silent).place = some (x.returned.length + 1)) ∧
    ∀ (st : Store) (r : Rack) (k : SlotIx) (c : CaseRecord), r.judgeResult st k c (x.record retries .aborted) = r

def Obligations.AHailReturnsTheIdentity : Prop :=
  ∀ (s : State) (k : SlotIx) (c : CaseRecord) (x : Exchange) (high low : Byte) (looks : List Bool),
    s.quiet → (s.rack.slot k).record = some c → c.state = .powering →
    c.stay.draining = false → s.rack.quiesce = .active → s.rack.bench.state = .idle →
    (s.rack.slot k).seq.mode = .hail → (s.rack.slot k).line.state = .reply →
    (s.rack.slot k).line.exchange = some x → x.probe = .hail →
    (x.returned = [] → receive looks = some ⟨high, evenParity high, true⟩ →
      ∃ r : Rack, exec (.replyByteReceived k looks) s = .next (s.withRack r) ∧
        r.slot k = { s.rack.slot k with line := { (s.rack.slot k).line with
          exchange := some { x with returned := [high] } } } ∧ Rack.onlySlot k s.rack r) ∧
    (x.returned = [high] → receive looks = some ⟨low, evenParity low, true⟩ →
      ∃ (r judged : Rack) (d : CaseRecord),
        exec (.replyByteReceived k looks) s = .next (s.withRack r) ∧
        judged = s.rack.passItem s.store k (caseModel s.store c).header.path ∧ (judged.slot k).record = some d ∧
        (r.slot k).stamp = (judged.slot k).stamp + 1 ∧ r.notices.hasSlot k = true ∧
        (c.boardId = none ∨ c.boardId = some (high ++ low) →
          (r.slot k).units = (s.rack.slot k).units ∧ (r.slot k).rail = (s.rack.slot k).rail ∧
          r.queue = s.rack.queue ∧ (∀ j, j ≠ k → r.slot j = s.rack.slot j) ∧
          Watch.armedFrom (caseStage s.store c).window 0 { (s.rack.slot k).watch with boot := none }
            (r.slot k).watch ∧
          (s.rack.queued k = false →
            (r.slot k).record = some { d with state := .running, boardId := some (high ++ low) } ∧
            (r.slot k).seq.mode = .program ∧ (r.slot k).seq.step = 1 ∧ (r.slot k).seq.index = 0) ∧
          (s.rack.queued k = true →
            (r.slot k).record = some { d with state := .waiting, boardId := some (high ++ low) } ∧
            (r.slot k).seq = { (s.rack.slot k).seq with mode := .off, tickWait := false, waitTickSeen := false } ∧
            (r.slot k).line = { (s.rack.slot k).line with state := .idle, exchange := none, lastEnd := .within })) ∧
        (∀ id, c.boardId = some id → id ≠ high ++ low →
          (r.slot k).record = some { d with state := .faulted .swapped } ∧ (r.slot k).units = 0 ∧
          r.queued k = false ∧ (r.slot k).rail.state.isOn = false ∧ (r.slot k).seq.mode = .off))

def Obligations.ABreakSettlesAndRetries : Prop :=
  ∀ (s : State) (k : SlotIx) (c : CaseRecord) (x : Exchange),
    s.quiet → (s.rack.slot k).record = some c → (s.rack.slot k).line.exchange = some x →
    ((s.rack.slot k).line.state = .breaking →
      ∃ r : Rack, exec (.breakEnd k) s = .next (s.withRack r) ∧
        r.slot k = { s.rack.slot k with line := { (s.rack.slot k).line with state := .settle } } ∧
        Rack.onlySlot k s.rack r ∧ r.notices = s.rack.notices) ∧
    ((s.rack.slot k).line.state = .settle → x.attempt ≤ (caseModel s.store c).header.retries →
      ∃ (r : Rack) (probe : Probe), exec (.settleEnd k) s = .next (s.withRack r) ∧
        (x.probe = .hail → probe = .hail) ∧
        (∀ asked sent t, x.probe = .peek asked sent t → probe = .peek asked .atForm t) ∧
        (∀ asked sent t d, x.probe = .poke asked sent t d → probe = .poke asked .atForm t d) ∧
        r.slot k = { s.rack.slot k with line := { (s.rack.slot k).line with
          state := .send
          exchange := some { x with probe := probe, attempt := x.attempt + 1, sent := 1, returned := [] } } } ∧
        Rack.onlySlot k s.rack r ∧ r.notices = s.rack.notices) ∧
    ((s.rack.slot k).line.state = .settle → (caseModel s.store c).header.retries < x.attempt →
      (s.rack.slot k).seq.mode = .hail →
      ∃ r : Rack, exec (.settleEnd k) s = .next (s.withRack r) ∧
        (r.slot k).seq = { (s.rack.slot k).seq with tickWait := true, waitTickSeen := false } ∧
        (r.slot k).record = some c ∧ (r.slot k).line.exchange = none)

/-! ## The probe sequencer -/

def Obligations.StepsProbeTheirAddresses : Prop :=
  (∀ (p : Step) (k : Nat),
    (p.pattern = 0 → p.patternByte k = p.value) ∧
    (p.pattern = 1 → p.patternByte k = BitVec.ofNat 8 (p.start.toNat + k)) ∧
    (p.pattern = 2 → p.patternByte k = ~~~ BitVec.ofNat 8 (p.start.toNat + k)) ∧
    (p.pattern = 3 → p.patternByte k = BitVec.ofNat 8 (2 ^ (k % 8)))) ∧
  (∀ (m : Model) (addr : Addr),
    (m.components.Pairwise fun x y => ∀ a b c d, x.range = some (a, b) → y.range = some (c, d) → b < c ∨ d < a) →
    (∀ (i : Nat) (x : Component) (first last : Addr), m.components[i]? = some x → x.range = some (first, last) →
      first ≤ addr → addr ≤ last → m.lookup addr = some (i + 1, x.waitClass) ∧ m.waitClass addr = x.waitClass) ∧
    ((∀ x ∈ m.components, ∀ first last, x.range = some (first, last) → addr < first ∨ last < addr) →
      m.lookup addr = none ∧ m.waitClass addr = 0)) ∧
  ∀ (st : Store) (c : CaseRecord) (sl : Slot) (p : Step) (first : Nat), currentStep st c sl.seq = some p →
    first = (if sl.line.lastEnd = .within then 0 else 1) →
    ∃ (q : Sequencer) (l : Line), issueProgram st c sl = { sl with seq := q, line := l } ∧
      q = { sl.seq with runStart :=
        if p.bound = 0 ∧ sl.seq.index = 0 ∧ sl.seq.runStart = none then some sl.seq.step else sl.seq.runStart } ∧
      l.state = .send ∧ l.sure = sl.line.sure ∧ l.lastEnd = sl.line.lastEnd ∧
      (p.kind = 0 → l.exchange = some ⟨.hail, 0, 1, first, []⟩ ∧ l.pointer = sl.line.pointer) ∧
      (p.kind = 1 ∨ p.kind = 2 →
        ∃ (asked sent : Form) (target : Addr),
          (1 ≤ sl.seq.index ∧ sl.seq.lastExchange = some (sl.seq.step, sl.seq.index - 1) →
            asked = .onForm ∧ target = sl.line.pointer + 1 ∧ sent = if sl.line.sure then .onForm else .atForm) ∧
          (¬(1 ≤ sl.seq.index ∧ sl.seq.lastExchange = some (sl.seq.step, sl.seq.index - 1)) →
            asked = .atForm ∧ target = p.start + BitVec.ofNat 24 sl.seq.index ∧ sent = .atForm) ∧
          l.pointer = target ∧
          (p.kind = 1 → l.exchange =
            some ⟨.peek asked sent target, (caseModel st c).waitClass target, 1, first, []⟩) ∧
          (p.kind = 2 → l.exchange =
            some ⟨.poke asked sent target (p.patternByte sl.seq.index), (caseModel st c).waitClass target, 1, first,
              []⟩))

def Obligations.ProgramExchangesEndAndGoOn : Prop :=
  ∀ (s : State) (k : SlotIx) (c : CaseRecord) (x : Exchange) (p : Step) (i : Instr) (judged : Rack) (sure : Bool)
    (looks : List Bool),
    s.quiet → (s.rack.slot k).record = some c → s.rack.inUse k = true →
    c.state = .running ∨ c.state = .paused →
    s.rack.bench.state = .idle ∨ s.rack.bench.state = .pending k → (s.rack.slot k).seq.mode = .program →
    (s.rack.slot k).line.exchange = some x → currentStep s.store c (s.rack.slot k).seq = some p →
    ((∃ asked sent t d b, x.probe = .poke asked sent t d ∧ (s.rack.slot k).line.state = .send ∧
        x.sent = x.probe.chars.length ∧ x.probe.chars.getLast? = some b ∧
        i = .echoReceived k looks ∧ receive looks = some ⟨b, evenParity b, true⟩ ∧ judged = s.rack ∧ sure = true) ∨
      (∃ asked sent t b n, x.probe = .peek asked sent t ∧ (s.rack.slot k).line.state = .reply ∧ x.returned = [] ∧
        i = .replyByteReceived k looks ∧ receive looks = some ⟨b, evenParity b, true⟩ ∧ sure = true ∧
        (∀ m w, (caseModel s.store c).lookup t = some (m, w) → n = m) ∧
        ((caseModel s.store c).lookup t = none → n = (caseModel s.store c).header.path) ∧
        judged = if p.mask = 0 then s.rack
          else if b &&& p.mask = p.patternByte (s.rack.slot k).seq.index &&& p.mask then s.rack.passItem s.store k n
          else s.rack.failNow s.store k n .miscompare) ∨
      (∃ high low, x.probe = .hail ∧ (s.rack.slot k).line.state = .reply ∧ x.returned = [high] ∧
        i = .replyByteReceived k looks ∧ receive looks = some ⟨low, evenParity low, true⟩ ∧
        sure = (s.rack.slot k).line.sure ∧
        judged = s.rack.passItem s.store k (caseModel s.store c).header.path) ∨
      ((s.rack.slot k).line.state = .settle ∧ (caseModel s.store c).header.retries < x.attempt ∧ i = .settleEnd k ∧
        judged = s.rack ∧ sure = (s.rack.slot k).line.sure)) →
    ∃ (r : Rack) (d c' : CaseRecord) (q : Sequencer) (sl : Slot),
      exec i s = .next (s.withRack r) ∧ (judged.slot k).record = some d ∧
      ((s.rack.slot k).seq.index + 1 < p.count →
        c' = d ∧ q = { (s.rack.slot k).seq with
          index := (s.rack.slot k).seq.index + 1
          lastExchange := some ((s.rack.slot k).seq.step, (s.rack.slot k).seq.index) }) ∧
      (p.count ≤ (s.rack.slot k).seq.index + 1 →
        (s.rack.slot k).seq.step < (caseSteps s.store c).length →
        c' = d ∧ q = { (s.rack.slot k).seq with
          step := (s.rack.slot k).seq.step + 1, index := 0
          runStart := if p.bound = 0 then (s.rack.slot k).seq.runStart else none
          lastExchange := some ((s.rack.slot k).seq.step, (s.rack.slot k).seq.index) }) ∧
      (p.count ≤ (s.rack.slot k).seq.index + 1 →
        (caseSteps s.store c).length ≤ (s.rack.slot k).seq.step →
        c' = { d with passes := min (d.passes + 1) 4294967295 } ∧ q = { (s.rack.slot k).seq with
          step := 1, index := 0
          runStart := if p.bound = 0 then (s.rack.slot k).seq.runStart else none
          lastExchange := some ((s.rack.slot k).seq.step, (s.rack.slot k).seq.index) }) ∧
      sl = { judged.slot k with
        record := some c'
        seq := q
        line := { (s.rack.slot k).line with state := .idle, exchange := none, sure := sure, lastEnd := .within } } ∧
      (q.runStart ≠ none ∨ c.state = .running ∧ s.rack.quiesce = .active ∧ s.rack.bench.state = .idle ∧
          c.stay.draining = false →
        r = judged.setSlot k (issueProgram s.store c' sl)) ∧
      (q.runStart = none → c.state = .running → s.rack.quiesce = .active → c.stay.draining = true →
        (s.rack.bench.state = .pending k → r.bench.state = .granted k) ∧
        ∀ p, (judged.setSlot k sl).advanceDue s.store k c' p →
          (judged.setSlot k sl).advancedTo s.store r k c' p) ∧
      (q.runStart = none → c.state = .paused ∨ s.rack.quiesce ≠ .active ∨
          s.rack.bench.state = .pending k ∧ c.stay.draining = false →
        (r.slot k).record = some { c' with stay := { c.stay with
          heldAdvance := c.stay.heldAdvance || c.stay.draining } } ∧
        r.slot k = { sl with record := (r.slot k).record, line := (r.slot k).line } ∧
        (∀ j, j ≠ k → r.slot j = judged.slot j) ∧ r.queue = s.rack.queue ∧
        (s.rack.bench.state = .idle → (r.slot k).line = sl.line ∧ r.bench = s.rack.bench ∧
          r.notices.slots = judged.notices.slots) ∧
        (s.rack.bench.state = .pending k →
          (r.slot k).line = { sl.line with state := .passed, sure := false } ∧
          r.bench = { s.rack.bench with state := .granted k } ∧
          r.notices.slots = (judged.noticeSlot k).notices.slots) ∧
        (s.rack.quiesce = .quiescing → (∀ j, j ≠ k → s.rack.inUse j = true → s.rack.isIdle j = true) →
          r.quiesce = .quiesced ∧ r.notices.flags = s.rack.notices.flags ||| 1) ∧
        (s.rack.quiesce ≠ .quiescing ∨ (∃ j, j ≠ k ∧ s.rack.inUse j = true ∧ s.rack.isIdle j = false) →
          r.quiesce = s.rack.quiesce ∧ r.notices.flags = s.rack.notices.flags))

def Obligations.FramesDecodeToTheirRequests : Prop :=
  (∀ (code check : Byte) (body rest : List Byte), code ≠ 0 → body.length ≤ 250 →
    (check = crc8 (code :: byte body.length :: body) →
      frameCommand (code :: byte body.length :: (body ++ check :: rest)) = some (requestOf code body)) ∧
    (check ≠ crc8 (code :: byte body.length :: body) →
      frameCommand (code :: byte body.length :: (body ++ check :: rest)) = some (.badFrame .crc))) ∧
  (∀ (code len : Byte) (rest : List Byte), code ≠ 0 → 250 < len.toNat →
    frameCommand (code :: len :: rest) = some (.badFrame .length)) ∧
  (∀ rest : List Byte, frameCommand (0 :: rest) = none) ∧
  frameCommand [0x63, 0x00, 0xCA] = some (.notices (some ⟨⟩)) ∧
  (∀ (code : Byte) (body : List Byte), isRequestCode code = false → requestOf code body = .unknownRequest code) ∧
  (∀ (make : Body NoArgs → Instr) (code : Byte), (code, make) ∈
      [(0x35#8, Instr.modelDiscard), (0x38, .storeClear), (0x41, .rackQuiesce), (0x42, .rackWake),
        (0x50, .budgetLook), (0x61, .rackStatus), (0x62, .rackRestart), (0x63, .notices)] →
    requestOf code [] = make (some ⟨⟩) ∧ ∀ body, body ≠ [] → requestOf code body = make none) ∧
  (∀ (make : Body SlotArgs → Instr) (code slot : Byte), (code, make) ∈
      [(0x11#8, Instr.caseStart), (0x12, .casePause), (0x13, .caseResume), (0x14, .caseStop), (0x15, .caseClose)] →
    requestOf code [slot] = make (some ⟨slot⟩) ∧ ∀ body, body.length ≠ 1 → requestOf code body = make none) ∧
  (∀ (slot model priority : Byte) (tag : List Byte), tag.length ≤ 255 →
    requestOf 0x10 ([slot, model, byte tag.length] ++ tag ++ [priority]) =
      .caseOpen (some ⟨slot, model, tag, priority⟩)) ∧
  (∀ (slot : Byte) (number : Half),
    requestOf 0x16 [0, slot] = .caseLook (some (.bySlot slot)) ∧
    requestOf 0x16 (1 :: bytes 2 number.toNat) = .caseLook (some (.byNumber number))) ∧
  (∀ tag : List Byte, tag.length ≤ 255 →
    requestOf 0x17 (byte tag.length :: tag) = .caseFind (some ⟨tag⟩)) ∧
  (∀ (slot p : Byte) (stamp : Half) (tag : List Byte), tag.length ≤ 255 →
    requestOf 0x18 ([slot] ++ bytes 2 stamp.toNat ++ [1, byte tag.length] ++ tag ++ [1, p, 1]) =
      .caseAmend (some ⟨slot, stamp, some tag, some p, true⟩) ∧
    requestOf 0x18 ([slot] ++ bytes 2 stamp.toNat ++ [0, 1, p, 0]) =
      .caseAmend (some ⟨slot, stamp, none, some p, false⟩) ∧
    requestOf 0x18 ([slot] ++ bytes 2 stamp.toNat ++ [0, 0, 1]) =
      .caseAmend (some ⟨slot, stamp, none, none, true⟩)) ∧
  (∀ slot rank : Byte, requestOf 0x20 [slot, rank] = .suspectList (some ⟨slot, rank⟩)) ∧
  (∀ (slot component : Byte) (stamp : Half),
    requestOf 0x21 ([slot] ++ bytes 2 stamp.toNat ++ [component, 0]) =
      .suspectNoteFail (some ⟨slot, stamp, component⟩) ∧
    requestOf 0x21 ([slot] ++ bytes 2 stamp.toNat ++ [component, 1]) =
      .suspectNoteConfirm (some ⟨slot, stamp, component⟩) ∧
    requestOf 0x21 ([slot] ++ bytes 2 stamp.toNat ++ [component, 2]) =
      .suspectNoteClear (some ⟨slot, stamp, component⟩)) ∧
  (∀ model component : Byte, requestOf 0x22 [model, component] = .suspectSweep (some ⟨model, component⟩)) ∧
  (∀ (slot component : Byte) (stamp : Half) (first last : Addr),
    requestOf 0x23 ([slot] ++ bytes 2 stamp.toNat ++ [1] ++ bytes 3 first.toNat ++ bytes 3 last.toNat ++ [0]) =
      .rework (some ⟨slot, stamp, some (first, last), none⟩) ∧
    requestOf 0x23 ([slot] ++ bytes 2 stamp.toNat ++ [0, 1, component]) =
      .rework (some ⟨slot, stamp, none, some component⟩)) ∧
  (∀ a : ModelBeginArgs, a.name.length ≤ 255 →
    requestOf 0x30 (byte a.name.length :: a.name
        ++ [a.lineRate, a.retries, a.confirmThreshold, a.confirmSpread]
        ++ bytes 2 a.clearCount.toNat ++ bytes 2 a.bootAllowance.toNat
        ++ [a.strikeLimit, a.restTime, a.riseAllowance, a.sagAllowance, a.cycles, a.path, a.rail, a.hang]) =
      .modelBegin (some a)) ∧
  (∀ (cls w : Byte) (designator : List Byte) (first last : Addr), designator.length ≤ 255 →
    requestOf 0x31 (byte designator.length :: designator ++ [cls, 0, 0]) =
      .modelAddComponent (some ⟨designator, cls, none, none⟩) ∧
    requestOf 0x31 (byte designator.length :: designator ++ [cls, 1] ++ bytes 3 first.toNat ++ bytes 3 last.toNat
        ++ [0]) =
      .modelAddComponent (some ⟨designator, cls, some (first, last), none⟩) ∧
    requestOf 0x31 (byte designator.length :: designator ++ [cls, 1] ++ bytes 3 first.toNat ++ bytes 3 last.toNat
        ++ [1, w]) =
      .modelAddComponent (some ⟨designator, cls, some (first, last), some w⟩)) ∧
  (∀ a : AddStageArgs,
    requestOf 0x32 (bytes 3 a.duration.toNat ++ [a.margin, a.dutyA, a.dutyB] ++ bytes 2 a.halfPeriod.toNat
        ++ [a.units, a.program] ++ bytes 2 a.window.toNat) = .modelAddStage (some a)) ∧
  (∀ a : AddStepArgs,
    requestOf 0x33 ([a.program, a.kind] ++ bytes 3 a.start.toNat ++ bytes 2 a.count.toNat
        ++ [a.pattern, a.value, a.mask, a.bound]) = .modelAddStep (some a)) ∧
  (∀ model : Byte, requestOf 0x34 [model] = .modelCommit (some ⟨model⟩) ∧
    requestOf 0x37 [model] = .modelLock (some ⟨model⟩)) ∧
  (∀ model i p : Byte,
    requestOf 0x36 [model, 0] = .modelRead (some ⟨model, .header⟩) ∧
    requestOf 0x36 [model, 1, i] = .modelRead (some ⟨model, .component i⟩) ∧
    requestOf 0x36 [model, 2, i] = .modelRead (some ⟨model, .stage i⟩) ∧
    requestOf 0x36 [model, 3, i, p] = .modelRead (some ⟨model, .step i p⟩)) ∧
  (∀ slot duty : Byte, requestOf 0x40 [slot, duty] = .heaterTrim (some ⟨slot, duty⟩)) ∧
  ∀ tick budget attention : Byte,
    requestOf 0x60 [tick, budget, attention] = .rackSetup (some ⟨tick, budget, attention⟩)
end

