-- ==== Sys2Proof/Laws/Line.lean ====
section
/-! SUPPORT. What the receiver of a sense line makes of its looks, what a row with looks does, and where the pass switch
stands. -/

namespace Sys2Proof.Machine

@[simp] theorem receive_nil : receive [] = none := rfl

@[simp] theorem receive_low (looks : List Bool) : receive (false :: looks) = receive looks := rfl

@[simp] theorem receive_high_high (looks : List Bool) : receive (true :: true :: looks) = receive (true :: looks) := rfl

@[simp] theorem receive_glitch (looks : List Bool) : receive (true :: false :: true :: looks) = receive (true :: looks) := rfl

@[simp] theorem receive_start (samples : List Bool) : receive (true :: false :: false :: samples) = charOfSamples samples :=
  rfl

/-- The data bits of a character, sampled the least significant first, are its byte. -/
theorem ofBoolListLE_bits (b : Byte) :
    BitVec.ofBoolListLE [b.getLsbD 0, b.getLsbD 1, b.getLsbD 2, b.getLsbD 3, b.getLsbD 4, b.getLsbD 5, b.getLsbD 6,
      b.getLsbD 7] = b := by
  revert b; decide +kernel

/-- Each data bit of a received character is its sample. -/
theorem getLsbD_ofBoolListLE : ∀ b0 b1 b2 b3 b4 b5 b6 b7 : Bool, ∀ i : Fin 8,
    (BitVec.ofBoolListLE [b0, b1, b2, b3, b4, b5, b6, b7]).getLsbD i.val =
      [b0, b1, b2, b3, b4, b5, b6, b7][i] := by decide +kernel

/-- A character that is sent whole is received as it was sent. -/
theorem receive_charBits (b : Byte) (later : List Bool) :
    receive (true :: false :: (charBits b ++ later)) = some ⟨b, evenParity b, true⟩ := by
  exact congrArg (fun d => some (LineChar.mk d (evenParity b) true)) (ofBoolListLE_bits b)

/-- Fewer than ten samples make no whole character. -/
theorem charOfSamples_short (samples : List Bool) (h : samples.length < 10) : charOfSamples samples = none := by
  unfold charOfSamples
  split
  · simp at h; omega
  · rfl

/-- A row whose looks hold no whole character changes nothing. -/
@[simp] theorem Rack.onChar_none {looks : List Bool} (r : Rack) (event : LineChar → Rack) (h : receive looks = none) :
    r.onChar looks event = r := by simp [Rack.onChar, h]

/-- A row takes the whole character in its looks. -/
@[simp] theorem Rack.onChar_some {looks : List Bool} {char : LineChar} (r : Rack) (event : LineChar → Rack)
    (h : receive looks = some char) : r.onChar looks event = event char := by simp [Rack.onChar, h]

/-- The pass switch joins the granted slot. -/
theorem Rack.passSwitch_eq_some {r : Rack} {k : SlotIx} : r.passSwitch = some k ↔ r.bench.state = .granted k := by
  unfold Rack.passSwitch
  cases r.bench.state <;> simp

/-- A station reaches no line but the granted slot's. -/
theorem Rack.snsLevel_not_joined {r : Rack} {k : SlotIx} (h : r.bench.state ≠ .granted k) (i : Nat)
    (boardLow stationLow : Bool) : r.snsLevel k i boardLow stationLow = (r.slot k).line.level i boardLow := by
  have : (r.passSwitch == some k) = false := by simpa using fun e => h (Rack.passSwitch_eq_some.mp e)
  simp [Rack.snsLevel, this]

/-- On the granted slot's line the station drives low as the board does. -/
theorem Rack.snsLevel_joined {r : Rack} {k : SlotIx} (h : r.bench.state = .granted k) (i : Nat)
    (boardLow stationLow : Bool) :
    r.snsLevel k i boardLow stationLow = (r.slot k).line.level i (boardLow || stationLow) := by
  simp [Rack.snsLevel, Rack.passSwitch_eq_some.mpr h]

end Sys2Proof.Machine
end

