-- ==== Sys2Proof/Laws/State.lean ====
section
/-! SUPPORT. One lemma for each field of the state and each update of it, so that no proof unfolds a record update. -/

namespace Sys2Proof.Machine

/-! ## One slot -/

@[simp] theorem Rack.slot_setSlot_same (r : Rack) (k : SlotIx) (sl : Slot) : (r.setSlot k sl).slot k = sl := by
  simp [Rack.slot, Rack.setSlot]

@[simp] theorem Rack.slot_setSlot_ne (r : Rack) {j k : SlotIx} (sl : Slot) (h : j ≠ k) :
    (r.setSlot k sl).slot j = r.slot j := by
  have h' : k.val ≠ j.val := fun e => h (Fin.ext e.symm)
  simp [Rack.slot, Rack.setSlot, h']

theorem Rack.slot_setSlot (r : Rack) (j k : SlotIx) (sl : Slot) :
    (r.setSlot k sl).slot j = if j = k then sl else r.slot j := by
  by_cases h : j = k
  · subst h; simp
  · simp [h]

@[simp] theorem Rack.slot_modSlot_same (r : Rack) (k : SlotIx) (f : Slot → Slot) :
    (r.modSlot k f).slot k = f (r.slot k) := by simp [Rack.modSlot]

@[simp] theorem Rack.slot_modSlot_ne (r : Rack) {j k : SlotIx} (f : Slot → Slot) (h : j ≠ k) :
    (r.modSlot k f).slot j = r.slot j := by simp [Rack.modSlot, h]

theorem Rack.slot_modSlot (r : Rack) (j k : SlotIx) (f : Slot → Slot) :
    (r.modSlot k f).slot j = if j = k then f (r.slot k) else r.slot j := by
  by_cases h : j = k
  · subst h; simp
  · simp [h]

/-! ## Updates of one slot leave the rest of the rack -/

@[simp] theorem Rack.wide_setSlot (r : Rack) (k : SlotIx) (sl : Slot) : (r.setSlot k sl).wide = r.wide := rfl
@[simp] theorem Rack.budget_setSlot (r : Rack) (k : SlotIx) (sl : Slot) : (r.setSlot k sl).budget = r.budget := rfl
@[simp] theorem Rack.queue_setSlot (r : Rack) (k : SlotIx) (sl : Slot) : (r.setSlot k sl).queue = r.queue := rfl
@[simp] theorem Rack.quiesce_setSlot (r : Rack) (k : SlotIx) (sl : Slot) : (r.setSlot k sl).quiesce = r.quiesce := rfl
@[simp] theorem Rack.bench_setSlot (r : Rack) (k : SlotIx) (sl : Slot) : (r.setSlot k sl).bench = r.bench := rfl
@[simp] theorem Rack.notices_setSlot (r : Rack) (k : SlotIx) (sl : Slot) : (r.setSlot k sl).notices = r.notices := rfl

@[simp] theorem Rack.wide_modSlot (r : Rack) (k : SlotIx) (f : Slot → Slot) : (r.modSlot k f).wide = r.wide := rfl
@[simp] theorem Rack.budget_modSlot (r : Rack) (k : SlotIx) (f : Slot → Slot) : (r.modSlot k f).budget = r.budget := rfl
@[simp] theorem Rack.queue_modSlot (r : Rack) (k : SlotIx) (f : Slot → Slot) : (r.modSlot k f).queue = r.queue := rfl
@[simp] theorem Rack.quiesce_modSlot (r : Rack) (k : SlotIx) (f : Slot → Slot) : (r.modSlot k f).quiesce = r.quiesce := rfl
@[simp] theorem Rack.bench_modSlot (r : Rack) (k : SlotIx) (f : Slot → Slot) : (r.modSlot k f).bench = r.bench := rfl
@[simp] theorem Rack.notices_modSlot (r : Rack) (k : SlotIx) (f : Slot → Slot) : (r.modSlot k f).notices = r.notices := rfl

@[simp] theorem Rack.wide_modCase (r : Rack) (k : SlotIx) (f : CaseRecord → CaseRecord) : (r.modCase k f).wide = r.wide := rfl
@[simp] theorem Rack.budget_modCase (r : Rack) (k : SlotIx) (f : CaseRecord → CaseRecord) : (r.modCase k f).budget = r.budget := rfl
@[simp] theorem Rack.queue_modCase (r : Rack) (k : SlotIx) (f : CaseRecord → CaseRecord) : (r.modCase k f).queue = r.queue := rfl
@[simp] theorem Rack.quiesce_modCase (r : Rack) (k : SlotIx) (f : CaseRecord → CaseRecord) : (r.modCase k f).quiesce = r.quiesce := rfl
@[simp] theorem Rack.bench_modCase (r : Rack) (k : SlotIx) (f : CaseRecord → CaseRecord) : (r.modCase k f).bench = r.bench := rfl
@[simp] theorem Rack.notices_modCase (r : Rack) (k : SlotIx) (f : CaseRecord → CaseRecord) : (r.modCase k f).notices = r.notices := rfl

@[simp] theorem Rack.wide_modStay (r : Rack) (k : SlotIx) (f : Stay → Stay) : (r.modStay k f).wide = r.wide := rfl
@[simp] theorem Rack.budget_modStay (r : Rack) (k : SlotIx) (f : Stay → Stay) : (r.modStay k f).budget = r.budget := rfl
@[simp] theorem Rack.queue_modStay (r : Rack) (k : SlotIx) (f : Stay → Stay) : (r.modStay k f).queue = r.queue := rfl
@[simp] theorem Rack.quiesce_modStay (r : Rack) (k : SlotIx) (f : Stay → Stay) : (r.modStay k f).quiesce = r.quiesce := rfl
@[simp] theorem Rack.bench_modStay (r : Rack) (k : SlotIx) (f : Stay → Stay) : (r.modStay k f).bench = r.bench := rfl
@[simp] theorem Rack.notices_modStay (r : Rack) (k : SlotIx) (f : Stay → Stay) : (r.modStay k f).notices = r.notices := rfl

@[simp] theorem Rack.wide_modRail (r : Rack) (k : SlotIx) (f : Rail → Rail) : (r.modRail k f).wide = r.wide := rfl
@[simp] theorem Rack.budget_modRail (r : Rack) (k : SlotIx) (f : Rail → Rail) : (r.modRail k f).budget = r.budget := rfl
@[simp] theorem Rack.queue_modRail (r : Rack) (k : SlotIx) (f : Rail → Rail) : (r.modRail k f).queue = r.queue := rfl
@[simp] theorem Rack.quiesce_modRail (r : Rack) (k : SlotIx) (f : Rail → Rail) : (r.modRail k f).quiesce = r.quiesce := rfl
@[simp] theorem Rack.bench_modRail (r : Rack) (k : SlotIx) (f : Rail → Rail) : (r.modRail k f).bench = r.bench := rfl
@[simp] theorem Rack.notices_modRail (r : Rack) (k : SlotIx) (f : Rail → Rail) : (r.modRail k f).notices = r.notices := rfl

@[simp] theorem Rack.wide_modLine (r : Rack) (k : SlotIx) (f : Line → Line) : (r.modLine k f).wide = r.wide := rfl
@[simp] theorem Rack.budget_modLine (r : Rack) (k : SlotIx) (f : Line → Line) : (r.modLine k f).budget = r.budget := rfl
@[simp] theorem Rack.queue_modLine (r : Rack) (k : SlotIx) (f : Line → Line) : (r.modLine k f).queue = r.queue := rfl
@[simp] theorem Rack.quiesce_modLine (r : Rack) (k : SlotIx) (f : Line → Line) : (r.modLine k f).quiesce = r.quiesce := rfl
@[simp] theorem Rack.bench_modLine (r : Rack) (k : SlotIx) (f : Line → Line) : (r.modLine k f).bench = r.bench := rfl
@[simp] theorem Rack.notices_modLine (r : Rack) (k : SlotIx) (f : Line → Line) : (r.modLine k f).notices = r.notices := rfl

@[simp] theorem Rack.wide_modSeq (r : Rack) (k : SlotIx) (f : Sequencer → Sequencer) : (r.modSeq k f).wide = r.wide := rfl
@[simp] theorem Rack.budget_modSeq (r : Rack) (k : SlotIx) (f : Sequencer → Sequencer) : (r.modSeq k f).budget = r.budget := rfl
@[simp] theorem Rack.queue_modSeq (r : Rack) (k : SlotIx) (f : Sequencer → Sequencer) : (r.modSeq k f).queue = r.queue := rfl
@[simp] theorem Rack.quiesce_modSeq (r : Rack) (k : SlotIx) (f : Sequencer → Sequencer) : (r.modSeq k f).quiesce = r.quiesce := rfl
@[simp] theorem Rack.bench_modSeq (r : Rack) (k : SlotIx) (f : Sequencer → Sequencer) : (r.modSeq k f).bench = r.bench := rfl
@[simp] theorem Rack.notices_modSeq (r : Rack) (k : SlotIx) (f : Sequencer → Sequencer) : (r.modSeq k f).notices = r.notices := rfl

@[simp] theorem Rack.wide_modWatch (r : Rack) (k : SlotIx) (f : Watch → Watch) : (r.modWatch k f).wide = r.wide := rfl
@[simp] theorem Rack.budget_modWatch (r : Rack) (k : SlotIx) (f : Watch → Watch) : (r.modWatch k f).budget = r.budget := rfl
@[simp] theorem Rack.queue_modWatch (r : Rack) (k : SlotIx) (f : Watch → Watch) : (r.modWatch k f).queue = r.queue := rfl
@[simp] theorem Rack.quiesce_modWatch (r : Rack) (k : SlotIx) (f : Watch → Watch) : (r.modWatch k f).quiesce = r.quiesce := rfl
@[simp] theorem Rack.bench_modWatch (r : Rack) (k : SlotIx) (f : Watch → Watch) : (r.modWatch k f).bench = r.bench := rfl
@[simp] theorem Rack.notices_modWatch (r : Rack) (k : SlotIx) (f : Watch → Watch) : (r.modWatch k f).notices = r.notices := rfl

@[simp] theorem Rack.wide_stamp (r : Rack) (k : SlotIx) : (r.stamp k).wide = r.wide := rfl
@[simp] theorem Rack.budget_stamp (r : Rack) (k : SlotIx) : (r.stamp k).budget = r.budget := rfl
@[simp] theorem Rack.queue_stamp (r : Rack) (k : SlotIx) : (r.stamp k).queue = r.queue := rfl
@[simp] theorem Rack.quiesce_stamp (r : Rack) (k : SlotIx) : (r.stamp k).quiesce = r.quiesce := rfl
@[simp] theorem Rack.bench_stamp (r : Rack) (k : SlotIx) : (r.stamp k).bench = r.bench := rfl
@[simp] theorem Rack.notices_stamp (r : Rack) (k : SlotIx) : (r.stamp k).notices = r.notices := rfl

@[simp] theorem Rack.wide_setUnits (r : Rack) (k : SlotIx) (n : Nat) : (r.setUnits k n).wide = r.wide := rfl
@[simp] theorem Rack.budget_setUnits (r : Rack) (k : SlotIx) (n : Nat) : (r.setUnits k n).budget = r.budget := rfl
@[simp] theorem Rack.queue_setUnits (r : Rack) (k : SlotIx) (n : Nat) : (r.setUnits k n).queue = r.queue := rfl
@[simp] theorem Rack.quiesce_setUnits (r : Rack) (k : SlotIx) (n : Nat) : (r.setUnits k n).quiesce = r.quiesce := rfl
@[simp] theorem Rack.bench_setUnits (r : Rack) (k : SlotIx) (n : Nat) : (r.setUnits k n).bench = r.bench := rfl
@[simp] theorem Rack.notices_setUnits (r : Rack) (k : SlotIx) (n : Nat) : (r.setUnits k n).notices = r.notices := rfl

@[simp] theorem Rack.wide_railOff (r : Rack) (k : SlotIx) : (r.railOff k).wide = r.wide := rfl
@[simp] theorem Rack.budget_railOff (r : Rack) (k : SlotIx) : (r.railOff k).budget = r.budget := rfl
@[simp] theorem Rack.queue_railOff (r : Rack) (k : SlotIx) : (r.railOff k).queue = r.queue := rfl
@[simp] theorem Rack.quiesce_railOff (r : Rack) (k : SlotIx) : (r.railOff k).quiesce = r.quiesce := rfl
@[simp] theorem Rack.bench_railOff (r : Rack) (k : SlotIx) : (r.railOff k).bench = r.bench := rfl
@[simp] theorem Rack.notices_railOff (r : Rack) (k : SlotIx) : (r.railOff k).notices = r.notices := rfl

@[simp] theorem Rack.wide_untrip (r : Rack) (k : SlotIx) : (r.untrip k).wide = r.wide := rfl
@[simp] theorem Rack.budget_untrip (r : Rack) (k : SlotIx) : (r.untrip k).budget = r.budget := rfl
@[simp] theorem Rack.queue_untrip (r : Rack) (k : SlotIx) : (r.untrip k).queue = r.queue := rfl
@[simp] theorem Rack.quiesce_untrip (r : Rack) (k : SlotIx) : (r.untrip k).quiesce = r.quiesce := rfl
@[simp] theorem Rack.bench_untrip (r : Rack) (k : SlotIx) : (r.untrip k).bench = r.bench := rfl
@[simp] theorem Rack.notices_untrip (r : Rack) (k : SlotIx) : (r.untrip k).notices = r.notices := rfl

@[simp] theorem Rack.wide_abortOff (r : Rack) (k : SlotIx) : (r.abortOff k).wide = r.wide := rfl
@[simp] theorem Rack.budget_abortOff (r : Rack) (k : SlotIx) : (r.abortOff k).budget = r.budget := rfl
@[simp] theorem Rack.queue_abortOff (r : Rack) (k : SlotIx) : (r.abortOff k).queue = r.queue := rfl
@[simp] theorem Rack.quiesce_abortOff (r : Rack) (k : SlotIx) : (r.abortOff k).quiesce = r.quiesce := rfl
@[simp] theorem Rack.bench_abortOff (r : Rack) (k : SlotIx) : (r.abortOff k).bench = r.bench := rfl
@[simp] theorem Rack.notices_abortOff (r : Rack) (k : SlotIx) : (r.abortOff k).notices = r.notices := rfl

@[simp] theorem Rack.wide_setList (r : Rack) (k : SlotIx) (l : List Suspect) : (r.setList k l).wide = r.wide := rfl
@[simp] theorem Rack.budget_setList (r : Rack) (k : SlotIx) (l : List Suspect) : (r.setList k l).budget = r.budget := rfl
@[simp] theorem Rack.queue_setList (r : Rack) (k : SlotIx) (l : List Suspect) : (r.setList k l).queue = r.queue := rfl
@[simp] theorem Rack.quiesce_setList (r : Rack) (k : SlotIx) (l : List Suspect) : (r.setList k l).quiesce = r.quiesce := rfl
@[simp] theorem Rack.bench_setList (r : Rack) (k : SlotIx) (l : List Suspect) : (r.setList k l).bench = r.bench := rfl
@[simp] theorem Rack.notices_setList (r : Rack) (k : SlotIx) (l : List Suspect) : (r.setList k l).notices = r.notices := rfl

@[simp] theorem Rack.wide_dropRun (r : Rack) (k : SlotIx) : (r.dropRun k).wide = r.wide := rfl
@[simp] theorem Rack.budget_dropRun (r : Rack) (k : SlotIx) : (r.dropRun k).budget = r.budget := rfl
@[simp] theorem Rack.queue_dropRun (r : Rack) (k : SlotIx) : (r.dropRun k).queue = r.queue := rfl
@[simp] theorem Rack.quiesce_dropRun (r : Rack) (k : SlotIx) : (r.dropRun k).quiesce = r.quiesce := rfl
@[simp] theorem Rack.bench_dropRun (r : Rack) (k : SlotIx) : (r.dropRun k).bench = r.bench := rfl
@[simp] theorem Rack.notices_dropRun (r : Rack) (k : SlotIx) : (r.dropRun k).notices = r.notices := rfl

@[simp] theorem Rack.wide_beginStay (st : Store) (r : Rack) (k : SlotIx) (p : Position) : (Rack.beginStay st r k p).wide = r.wide := rfl
@[simp] theorem Rack.budget_beginStay (st : Store) (r : Rack) (k : SlotIx) (p : Position) : (Rack.beginStay st r k p).budget = r.budget := rfl
@[simp] theorem Rack.queue_beginStay (st : Store) (r : Rack) (k : SlotIx) (p : Position) : (Rack.beginStay st r k p).queue = r.queue := rfl
@[simp] theorem Rack.quiesce_beginStay (st : Store) (r : Rack) (k : SlotIx) (p : Position) : (Rack.beginStay st r k p).quiesce = r.quiesce := rfl
@[simp] theorem Rack.bench_beginStay (st : Store) (r : Rack) (k : SlotIx) (p : Position) : (Rack.beginStay st r k p).bench = r.bench := rfl
@[simp] theorem Rack.notices_beginStay (st : Store) (r : Rack) (k : SlotIx) (p : Position) : (Rack.beginStay st r k p).notices = r.notices := rfl

@[simp] theorem Rack.wide_noticeSlot (r : Rack) (k : SlotIx) : (r.noticeSlot k).wide = r.wide := rfl
@[simp] theorem Rack.wide_noticeFlag (r : Rack) (g : RackFlag) : (r.noticeFlag g).wide = r.wide := rfl
@[simp] theorem Rack.wide_enter (r : Rack) (k : SlotIx) (cs : CaseState) : (r.enter k cs).wide = r.wide := rfl
@[simp] theorem Rack.budget_noticeSlot (r : Rack) (k : SlotIx) : (r.noticeSlot k).budget = r.budget := rfl
@[simp] theorem Rack.budget_noticeFlag (r : Rack) (g : RackFlag) : (r.noticeFlag g).budget = r.budget := rfl
@[simp] theorem Rack.budget_enter (r : Rack) (k : SlotIx) (cs : CaseState) : (r.enter k cs).budget = r.budget := rfl
@[simp] theorem Rack.queue_noticeSlot (r : Rack) (k : SlotIx) : (r.noticeSlot k).queue = r.queue := rfl
@[simp] theorem Rack.queue_noticeFlag (r : Rack) (g : RackFlag) : (r.noticeFlag g).queue = r.queue := rfl
@[simp] theorem Rack.queue_enter (r : Rack) (k : SlotIx) (cs : CaseState) : (r.enter k cs).queue = r.queue := rfl
@[simp] theorem Rack.quiesce_noticeSlot (r : Rack) (k : SlotIx) : (r.noticeSlot k).quiesce = r.quiesce := rfl
@[simp] theorem Rack.quiesce_noticeFlag (r : Rack) (g : RackFlag) : (r.noticeFlag g).quiesce = r.quiesce := rfl
@[simp] theorem Rack.quiesce_enter (r : Rack) (k : SlotIx) (cs : CaseState) : (r.enter k cs).quiesce = r.quiesce := rfl
@[simp] theorem Rack.bench_noticeSlot (r : Rack) (k : SlotIx) : (r.noticeSlot k).bench = r.bench := rfl
@[simp] theorem Rack.bench_noticeFlag (r : Rack) (g : RackFlag) : (r.noticeFlag g).bench = r.bench := rfl
@[simp] theorem Rack.bench_enter (r : Rack) (k : SlotIx) (cs : CaseState) : (r.enter k cs).bench = r.bench := rfl
@[simp] theorem Rack.notices_noticeSlot (r : Rack) (k : SlotIx) :
    (r.noticeSlot k).notices = { r.notices with slots := r.notices.slots ||| BitVec.twoPow 16 k.val } := rfl
@[simp] theorem Rack.notices_noticeFlag (r : Rack) (g : RackFlag) :
    (r.noticeFlag g).notices = { r.notices with flags := r.notices.flags ||| g.bits } := rfl
@[simp] theorem Rack.notices_enter (r : Rack) (k : SlotIx) (cs : CaseState) :
    (r.enter k cs).notices = { r.notices with slots := r.notices.slots ||| BitVec.twoPow 16 k.val } := rfl

@[simp] theorem Rack.wide_removeEntry (r : Rack) (k : SlotIx) : (r.removeEntry k).wide = r.wide := rfl
@[simp] theorem Rack.wide_giveBack (r : Rack) (k : SlotIx) : (r.giveBack k).wide = r.wide := rfl
@[simp] theorem Rack.budget_removeEntry (r : Rack) (k : SlotIx) : (r.removeEntry k).budget = r.budget := rfl
@[simp] theorem Rack.budget_giveBack (r : Rack) (k : SlotIx) : (r.giveBack k).budget = r.budget := rfl
@[simp] theorem Rack.quiesce_removeEntry (r : Rack) (k : SlotIx) : (r.removeEntry k).quiesce = r.quiesce := rfl
@[simp] theorem Rack.quiesce_giveBack (r : Rack) (k : SlotIx) : (r.giveBack k).quiesce = r.quiesce := rfl
@[simp] theorem Rack.bench_removeEntry (r : Rack) (k : SlotIx) : (r.removeEntry k).bench = r.bench := rfl
@[simp] theorem Rack.bench_giveBack (r : Rack) (k : SlotIx) : (r.giveBack k).bench = r.bench := rfl
@[simp] theorem Rack.notices_removeEntry (r : Rack) (k : SlotIx) : (r.removeEntry k).notices = r.notices := rfl
@[simp] theorem Rack.notices_giveBack (r : Rack) (k : SlotIx) : (r.giveBack k).notices = r.notices := rfl

@[simp] theorem Rack.queue_removeEntry (r : Rack) (k : SlotIx) :
    (r.removeEntry k).queue = r.queue.filter fun e => e.slot != k := rfl
@[simp] theorem Rack.queue_giveBack (r : Rack) (k : SlotIx) :
    (r.giveBack k).queue = r.queue.filter fun e => e.slot != k := rfl

/-! ## The slot that an update changes -/

@[simp] theorem Rack.slot_modCase_same (r : Rack) (k : SlotIx) (f : CaseRecord → CaseRecord) :
    (r.modCase k f).slot k = { r.slot k with record := (r.slot k).record.map f } := by simp [Rack.modCase]
@[simp] theorem Rack.slot_modCase_ne (r : Rack) {j k : SlotIx} (f : CaseRecord → CaseRecord) (h : j ≠ k) :
    (r.modCase k f).slot j = r.slot j := by simp [Rack.modCase, h]

@[simp] theorem Rack.slot_modRail_same (r : Rack) (k : SlotIx) (f : Rail → Rail) :
    (r.modRail k f).slot k = { r.slot k with rail := f (r.slot k).rail } := by simp [Rack.modRail]
@[simp] theorem Rack.slot_modRail_ne (r : Rack) {j k : SlotIx} (f : Rail → Rail) (h : j ≠ k) :
    (r.modRail k f).slot j = r.slot j := by simp [Rack.modRail, h]

@[simp] theorem Rack.slot_modLine_same (r : Rack) (k : SlotIx) (f : Line → Line) :
    (r.modLine k f).slot k = { r.slot k with line := f (r.slot k).line } := by simp [Rack.modLine]
@[simp] theorem Rack.slot_modLine_ne (r : Rack) {j k : SlotIx} (f : Line → Line) (h : j ≠ k) :
    (r.modLine k f).slot j = r.slot j := by simp [Rack.modLine, h]

@[simp] theorem Rack.slot_modSeq_same (r : Rack) (k : SlotIx) (f : Sequencer → Sequencer) :
    (r.modSeq k f).slot k = { r.slot k with seq := f (r.slot k).seq } := by simp [Rack.modSeq]
@[simp] theorem Rack.slot_modSeq_ne (r : Rack) {j k : SlotIx} (f : Sequencer → Sequencer) (h : j ≠ k) :
    (r.modSeq k f).slot j = r.slot j := by simp [Rack.modSeq, h]

@[simp] theorem Rack.slot_modWatch_same (r : Rack) (k : SlotIx) (f : Watch → Watch) :
    (r.modWatch k f).slot k = { r.slot k with watch := f (r.slot k).watch } := by simp [Rack.modWatch]
@[simp] theorem Rack.slot_modWatch_ne (r : Rack) {j k : SlotIx} (f : Watch → Watch) (h : j ≠ k) :
    (r.modWatch k f).slot j = r.slot j := by simp [Rack.modWatch, h]

@[simp] theorem Rack.slot_stamp_same (r : Rack) (k : SlotIx) :
    (r.stamp k).slot k = { r.slot k with stamp := (r.slot k).stamp + 1 } := by simp [Rack.stamp]
@[simp] theorem Rack.slot_stamp_ne (r : Rack) {j k : SlotIx} (h : j ≠ k) :
    (r.stamp k).slot j = r.slot j := by simp [Rack.stamp, h]

@[simp] theorem Rack.slot_setUnits_same (r : Rack) (k : SlotIx) (n : Nat) :
    (r.setUnits k n).slot k = { r.slot k with units := n } := by simp [Rack.setUnits]
@[simp] theorem Rack.slot_setUnits_ne (r : Rack) {j k : SlotIx} (n : Nat) (h : j ≠ k) :
    (r.setUnits k n).slot j = r.slot j := by simp [Rack.setUnits, h]

@[simp] theorem Rack.slot_noticeSlot (r : Rack) (j k : SlotIx) : (r.noticeSlot k).slot j = r.slot j := rfl
@[simp] theorem Rack.slot_noticeFlag (r : Rack) (g : RackFlag) (j : SlotIx) : (r.noticeFlag g).slot j = r.slot j := rfl
@[simp] theorem Rack.slot_removeEntry (r : Rack) (j k : SlotIx) : (r.removeEntry k).slot j = r.slot j := rfl
/-- A rack with the slots of `r` and anything else has the slots of `r`. -/
@[simp] theorem Rack.slot_sameSlots (r : Rack) (w : Bool) (b : Option Nat) (q : List QueueEntry) (z : QuiesceState)
    (p : Bench) (n : NoticeSet) (j : SlotIx) : Rack.slot ⟨w, b, r.slots, q, z, p, n⟩ j = r.slot j := rfl

@[simp] theorem Rack.slot_enter_same (r : Rack) (k : SlotIx) (cs : CaseState) :
    (r.enter k cs).slot k =
      { r.slot k with record := (r.slot k).record.map fun c => { c with state := cs }
                      stamp := (r.slot k).stamp + 1 } := by simp [Rack.enter]
@[simp] theorem Rack.slot_enter_ne (r : Rack) {j k : SlotIx} (cs : CaseState) (h : j ≠ k) :
    (r.enter k cs).slot j = r.slot j := by simp [Rack.enter, h]

@[simp] theorem Rack.slot_modStay_same (r : Rack) (k : SlotIx) (f : Stay → Stay) :
    (r.modStay k f).slot k =
      { r.slot k with record := (r.slot k).record.map fun c => { c with stay := f c.stay } } := by
  simp [Rack.modStay]

@[simp] theorem Rack.slot_giveBack_same (r : Rack) (k : SlotIx) :
    (r.giveBack k).slot k = { r.slot k with units := 0 } := by simp [Rack.giveBack]

@[simp] theorem Rack.slot_setList_same (r : Rack) (k : SlotIx) (l : List Suspect) :
    (r.setList k l).slot k = { r.slot k with record := (r.slot k).record.map (CaseRecord.withList l) } := by
  simp [Rack.setList]

@[simp] theorem Rack.slot_untrip_same (r : Rack) (k : SlotIx) :
    (r.untrip k).slot k = { r.slot k with
      rail := { (r.slot k).rail with
        state := if (r.slot k).rail.state = .tripped then .off else (r.slot k).rail.state } } := by
  simp [Rack.untrip]

@[simp] theorem Rack.slot_beginStay_same (st : Store) (r : Rack) (k : SlotIx) (p : Position) :
    (r.beginStay st k p).slot k = { r.slot k with
      record := (r.slot k).record.map fun c => { c with stay := Stay.begin p ((caseModel st c).stage p.stage) } } := by
  simp [Rack.beginStay]

@[simp] theorem Rack.slot_modStay_ne (r : Rack) {j k : SlotIx} (f : Stay → Stay) (h : j ≠ k) :
    (r.modStay k f).slot j = r.slot j := by simp [Rack.modStay, h]
@[simp] theorem Rack.slot_railOff_ne (r : Rack) {j k : SlotIx} (h : j ≠ k) :
    (r.railOff k).slot j = r.slot j := by simp [Rack.railOff, h]
@[simp] theorem Rack.slot_untrip_ne (r : Rack) {j k : SlotIx} (h : j ≠ k) :
    (r.untrip k).slot j = r.slot j := by simp [Rack.untrip, h]
@[simp] theorem Rack.slot_abortOff_ne (r : Rack) {j k : SlotIx} (h : j ≠ k) :
    (r.abortOff k).slot j = r.slot j := by simp [Rack.abortOff, h]
@[simp] theorem Rack.slot_setList_ne (r : Rack) {j k : SlotIx} (l : List Suspect) (h : j ≠ k) :
    (r.setList k l).slot j = r.slot j := by simp [Rack.setList, h]
@[simp] theorem Rack.slot_giveBack_ne (r : Rack) {j k : SlotIx} (h : j ≠ k) :
    (r.giveBack k).slot j = r.slot j := by simp [Rack.giveBack, h]
@[simp] theorem Rack.slot_dropRun_ne (r : Rack) {j k : SlotIx} (h : j ≠ k) :
    (r.dropRun k).slot j = r.slot j := by simp [Rack.dropRun, h]
@[simp] theorem Rack.slot_beginStay_ne (st : Store) (r : Rack) {j k : SlotIx} (p : Position) (h : j ≠ k) :
    (Rack.beginStay st r k p).slot j = r.slot j := by simp [Rack.beginStay, h]

/-! ## The state -/

@[simp] theorem State.store_withRack (s : State) (r : Rack) : (s.withRack r).store = s.store := rfl
@[simp] theorem State.rack_withRack (s : State) (r : Rack) : (s.withRack r).rack = r := rfl
@[simp] theorem State.port_withRack (s : State) (r : Rack) : (s.withRack r).port = s.port := rfl
@[simp] theorem State.caseCounter_withRack (s : State) (r : Rack) : (s.withRack r).caseCounter = s.caseCounter := rfl
@[simp] theorem State.pending_withRack (s : State) (r : Rack) : (s.withRack r).pending = s.pending := rfl
@[simp] theorem State.freeCount_withRack (s : State) (r : Rack) : (s.withRack r).freeCount = s.freeCount := rfl
@[simp] theorem State.store_withStore (s : State) (st : Store) : (s.withStore st).store = st := rfl
@[simp] theorem State.rack_withStore (s : State) (st : Store) : (s.withStore st).rack = s.rack := rfl
@[simp] theorem State.port_withStore (s : State) (st : Store) : (s.withStore st).port = s.port := rfl
@[simp] theorem State.caseCounter_withStore (s : State) (st : Store) : (s.withStore st).caseCounter = s.caseCounter := rfl
@[simp] theorem State.pending_withStore (s : State) (st : Store) : (s.withStore st).pending = s.pending := rfl
@[simp] theorem State.freeCount_withStore (s : State) (st : Store) : (s.withStore st).freeCount = s.freeCount := rfl
@[simp] theorem State.rack_withPending (s : State) (l : List Instr) : (s.withPending l).rack = s.rack := rfl
@[simp] theorem State.store_withPending (s : State) (l : List Instr) : (s.withPending l).store = s.store := rfl
@[simp] theorem State.port_withPending (s : State) (l : List Instr) : (s.withPending l).port = s.port := rfl
@[simp] theorem State.pending_withPending (s : State) (l : List Instr) : (s.withPending l).pending = l := rfl
@[simp] theorem State.caseCounter_withPending (s : State) (l : List Instr) :
    (s.withPending l).caseCounter = s.caseCounter := rfl
@[simp] theorem State.freeCount_withPending (s : State) (l : List Instr) : (s.withPending l).freeCount = s.freeCount := rfl

@[simp] theorem State.rack_withPeriod (s : State) (d : SelPeriod) : (s.withPeriod d).rack = s.rack := rfl
@[simp] theorem State.store_withPeriod (s : State) (d : SelPeriod) : (s.withPeriod d).store = s.store := rfl
@[simp] theorem State.caseCounter_withPeriod (s : State) (d : SelPeriod) :
    (s.withPeriod d).caseCounter = s.caseCounter := rfl
@[simp] theorem State.pending_withPeriod (s : State) (d : SelPeriod) : (s.withPeriod d).pending = s.pending := rfl
@[simp] theorem State.freeCount_withPeriod (s : State) (d : SelPeriod) : (s.withPeriod d).freeCount = s.freeCount := rfl
@[simp] theorem State.period_withPeriod (s : State) (d : SelPeriod) : (s.withPeriod d).port.period = some d := rfl
@[simp] theorem State.answer_withPeriod (s : State) (d : SelPeriod) :
    (s.withPeriod d).port.answer = s.port.answer := rfl
@[simp] theorem State.collided_withPeriod (s : State) (d : SelPeriod) :
    (s.withPeriod d).port.collided = s.port.collided := rfl
@[simp] theorem State.rackState_withPeriod (s : State) (d : SelPeriod) :
    (s.withPeriod d).port.rackState = s.port.rackState := rfl
@[simp] theorem State.withPeriod_withPeriod (s : State) (d e : SelPeriod) :
    (s.withPeriod d).withPeriod e = s.withPeriod e := rfl

/-! ## The SEL period -/

@[simp] theorem SelPeriod.dout_shift (d : SelPeriod) : d.shift.dout = d.dout := rfl
@[simp] theorem SelPeriod.carriesAnswer_shift (d : SelPeriod) : d.shift.carriesAnswer = d.carriesAnswer := rfl
@[simp] theorem SelPeriod.readPosition_shift (d : SelPeriod) :
    d.shift.readPosition = min (d.readPosition + 1) d.dout.length := rfl
@[simp] theorem SelPeriod.collided_shift (d : SelPeriod) : d.shift.collided = d.collided := rfl
@[simp] theorem SelPeriod.frameIn_shift (d : SelPeriod) : d.shift.frameIn = d.frameIn := rfl
@[simp] theorem SelPeriod.bits_shift (d : SelPeriod) : d.shift.bits = d.bits := rfl
@[simp] theorem SelPeriod.clk_shift (d : SelPeriod) : d.shift.clk = d.clk := rfl
@[simp] theorem SelPeriod.doutBit_shift (d : SelPeriod) : d.shift.doutBit = d.doutBit := rfl
@[simp] theorem SelPeriod.dout_showBit (d : SelPeriod) : d.showBit.dout = d.dout := rfl
@[simp] theorem SelPeriod.carriesAnswer_showBit (d : SelPeriod) : d.showBit.carriesAnswer = d.carriesAnswer := rfl
@[simp] theorem SelPeriod.readPosition_showBit (d : SelPeriod) : d.showBit.readPosition = d.readPosition := rfl
@[simp] theorem SelPeriod.collided_showBit (d : SelPeriod) : d.showBit.collided = d.collided := rfl
@[simp] theorem SelPeriod.frameIn_showBit (d : SelPeriod) : d.showBit.frameIn = d.frameIn := rfl
@[simp] theorem SelPeriod.bits_showBit (d : SelPeriod) : d.showBit.bits = d.bits := rfl
@[simp] theorem SelPeriod.clk_showBit (d : SelPeriod) : d.showBit.clk = d.clk := rfl
@[simp] theorem SelPeriod.doutBit_showBit (d : SelPeriod) : d.showBit.doutBit = d.nextBit := rfl

@[simp] theorem Port.answer_complete (p : Port) : p.complete.answer = p.answer := rfl
@[simp] theorem Port.collided_complete (p : Port) : p.complete.collided = p.collided := rfl
@[simp] theorem Port.rackState_complete (p : Port) : p.complete.rackState = p.rackState := rfl
@[simp] theorem Port.answer_collide (p : Port) : p.collide.answer = p.answer := rfl
@[simp] theorem Port.collided_collide (p : Port) : p.collide.collided = true := rfl
@[simp] theorem Port.rackState_collide (p : Port) : p.collide.rackState = p.rackState := rfl
@[simp] theorem Port.rackState_shiftOut (p : Port) : p.shiftOut.rackState = p.rackState := by
  unfold Port.shiftOut
  cases p.period with
  | none => rfl
  | some d => dsimp only; split <;> rfl

/-! ## The bench port -/

@[simp] theorem Rack.wide_benchIdle (r : Rack) : r.benchIdle.wide = r.wide := rfl
@[simp] theorem Rack.budget_benchIdle (r : Rack) : r.benchIdle.budget = r.budget := rfl
@[simp] theorem Rack.queue_benchIdle (r : Rack) : r.benchIdle.queue = r.queue := rfl
@[simp] theorem Rack.quiesce_benchIdle (r : Rack) : r.benchIdle.quiesce = r.quiesce := rfl
@[simp] theorem Rack.notices_benchIdle (r : Rack) : r.benchIdle.notices = r.notices := rfl
@[simp] theorem Rack.bench_benchIdle (r : Rack) : r.benchIdle.bench = { r.bench with state := .idle } := rfl
@[simp] theorem Rack.slot_benchIdle (r : Rack) (k : SlotIx) : r.benchIdle.slot k = r.slot k := rfl

@[simp] theorem Bench.state_sample (b : Bench) (hold seize : Bool) : (b.sample hold seize).state = b.state := rfl
@[simp] theorem Bench.hold_sample (b : Bench) (hold seize : Bool) :
    (b.sample hold seize).hold = (debounce Config.benchSamples b.hold b.holdCount hold).1 := rfl
@[simp] theorem Bench.seize_sample (b : Bench) (hold seize : Bool) :
    (b.sample hold seize).seize = (debounce Config.benchSamples b.seize b.seizeCount seize).1 := rfl

/-! ## The notice set -/

@[simp] theorem NoticeSet.hasSlot_add (n : NoticeSet) (j k : SlotIx) :
    NoticeSet.hasSlot { n with slots := n.slots ||| BitVec.twoPow 16 k.val } j = (n.hasSlot j || j == k) := by
  have e : (j == k) = decide (j.val = k.val) := by rw [Bool.eq_iff_iff]; simp [Fin.ext_iff]
  simp [NoticeSet.hasSlot, e]

/-! ## Model slots -/

@[simp] theorem Store.write_setSlot (st : Store) (m : ModelIx) (x : ModelSlot) : (st.setSlot m x).write = st.write := rfl
@[simp] theorem Store.staging_setSlot (st : Store) (m : ModelIx) (x : ModelSlot) :
    (st.setSlot m x).staging = st.staging := rfl
@[simp] theorem Store.slots_setSlot (st : Store) (m : ModelIx) (x : ModelSlot) :
    (st.setSlot m x).slots = st.slots.set m x := rfl

end Sys2Proof.Machine
end

