-- ==== Sys2Proof/Laws/Ops.lean ====
section
/-! SUPPORT. What the shared operations can do: debounced samples, folds over the slots, the abort, the end of a run,
the issue of an exchange, a grant, a grant pass, the bench at a boundary, what follows in a slot, and that slots stay in the notice set. -/

namespace Sys2Proof.Machine

/-! ## Sampled inputs (R148, R203) -/

/-- A sample that agrees with the level ends the count. -/
theorem debounce_agree (limit count : Nat) (level : Bool) : debounce limit level count level = (level, 0) := by
  simp [debounce]

/-- A sample that disagrees is counted while it does not make `limit` in a row. -/
theorem debounce_count {limit count : Nat} {level sample : Bool} (h : sample ≠ level) (n : count + 1 < limit) :
    debounce limit level count sample = (level, count + 1) := by
  simp [debounce, h, n]

/-- The sample that makes `limit` in a row disagree changes the level. -/
theorem debounce_change {limit count : Nat} {level sample : Bool} (h : sample ≠ level) (n : limit ≤ count + 1) :
    debounce limit level count sample = (sample, 0) := by
  have n' : ¬ count + 1 < limit := by omega
  simp [debounce, h, n']

/-- The count stays below the limit. -/
theorem debounce_count_lt {limit : Nat} (h : 0 < limit) (level : Bool) (count : Nat) (sample : Bool) :
    (debounce limit level count sample).2 < limit := by
  unfold debounce
  split
  · exact h
  · split <;> assumption

/-! ## Folds over the slots -/

theorem mem_allSlots (k : SlotIx) : k ∈ allSlots := by revert k; decide

theorem nodup_allSlots : allSlots.Nodup := by decide

/-- A fold of an operation that changes its own slot alone changes each slot as the operation does. -/
theorem foldl_slot (f : Rack → SlotIx → Rack) (other : ∀ r j k, j ≠ k → (f r k).slot j = r.slot j) (k : SlotIx)
    (P : Slot → Slot → Prop) (own : ∀ r, P (r.slot k) ((f r k).slot k)) (r : Rack) :
    P (r.slot k) ((allSlots.foldl f r).slot k) := by
  have keep : ∀ (l : List SlotIx), k ∉ l → ∀ r, (l.foldl f r).slot k = r.slot k := by
    intro l
    induction l with
    | nil => intros; rfl
    | cons a l ih =>
      intro h r
      simp only [List.mem_cons, not_or] at h
      rw [List.foldl_cons, ih h.2, other _ _ _ h.1]
  have main : ∀ (l : List SlotIx), l.Nodup → k ∈ l → ∀ r, P (r.slot k) ((l.foldl f r).slot k) := by
    intro l
    induction l with
    | nil => intro _ h; simp at h
    | cons a l ih =>
      intro hn hk r
      rw [List.nodup_cons] at hn
      rw [List.foldl_cons]
      by_cases h : k = a
      · subst h; rw [keep l hn.1]; exact own r
      · have hk' : k ∈ l := by simpa [h] using hk
        have step := ih hn.2 hk' (f r a)
        rwa [other _ _ _ h] at step
  exact main allSlots nodup_allSlots (mem_allSlots k) r

/-- A fold keeps what each of its operations keeps. -/
theorem foldl_keeps {β α : Type} (f : Rack → β → Rack) (g : Rack → α) (h : ∀ r b, g (f r b) = g r) (l : List β)
    (r : Rack) : g (l.foldl f r) = g r := by
  induction l generalizing r with
  | nil => rfl
  | cons a l ih => rw [List.foldl_cons, ih, h]

/-! ## The end of a run -/

@[simp] theorem Line.exchange_abort (l : Line) : l.abort.exchange = none := by
  unfold Line.abort; cases h : l.exchange <;> simp [h]

@[simp] theorem Rack.record_dropRun (r : Rack) (k : SlotIx) : ((r.dropRun k).slot k).record = (r.slot k).record := by
  simp [Rack.dropRun, Rack.abortOff, Rack.railOff]

@[simp] theorem Rack.stamp_dropRun (r : Rack) (k : SlotIx) : ((r.dropRun k).slot k).stamp = (r.slot k).stamp := by
  simp [Rack.dropRun, Rack.abortOff, Rack.railOff]

@[simp] theorem Rack.units_dropRun (r : Rack) (k : SlotIx) : ((r.dropRun k).slot k).units = (r.slot k).units := by
  simp [Rack.dropRun, Rack.abortOff, Rack.railOff]

@[simp] theorem Rack.latch_dropRun (r : Rack) (k : SlotIx) :
    ((r.dropRun k).slot k).latchClosed = (r.slot k).latchClosed := by
  simp [Rack.dropRun, Rack.abortOff, Rack.railOff]

@[simp] theorem Rack.latchCount_dropRun (r : Rack) (k : SlotIx) :
    ((r.dropRun k).slot k).latchCount = (r.slot k).latchCount := by
  simp [Rack.dropRun, Rack.abortOff, Rack.railOff]

/-- After a run the rail is off, and TRIPPED stays (R137). -/
@[simp] theorem Rack.rail_dropRun (r : Rack) (k : SlotIx) :
    ((r.dropRun k).slot k).rail = { (r.slot k).rail with
      state := if (r.slot k).rail.state.isOn then .off else (r.slot k).rail.state, rise := 0, sag := 0, rest := none } := by
  simp [Rack.dropRun, Rack.abortOff, Rack.railOff]

@[simp] theorem Rack.exchange_dropRun (r : Rack) (k : SlotIx) : ((r.dropRun k).slot k).line.exchange = none := by
  simp [Rack.dropRun, Rack.abortOff, Rack.railOff]

@[simp] theorem Rack.sure_dropRun (r : Rack) (k : SlotIx) : ((r.dropRun k).slot k).line.sure = false := by
  simp [Rack.dropRun, Rack.abortOff, Rack.railOff]

@[simp] theorem Rack.mode_dropRun (r : Rack) (k : SlotIx) : ((r.dropRun k).slot k).seq.mode = .off := by
  simp [Rack.dropRun, Rack.abortOff, Rack.railOff]

@[simp] theorem Rack.runStart_dropRun (r : Rack) (k : SlotIx) : ((r.dropRun k).slot k).seq.runStart = none := by
  simp [Rack.dropRun, Rack.abortOff, Rack.railOff]

@[simp] theorem Rack.watch_dropRun (r : Rack) (k : SlotIx) :
    ((r.dropRun k).slot k).watch = { (r.slot k).watch with beat := none, boot := none } := by
  simp [Rack.dropRun, Rack.abortOff, Rack.railOff, Watch.disarm]

/-! ## The issue of an exchange (R182) -/

/-- What an issue leaves of its slot: everything but the line, and of the sequencer everything but the run start. -/
theorem Rack.slot_issue (st : Store) (r : Rack) (k : SlotIx) :
    ∃ (l : Line) (run : Option Nat), (Rack.issue st r k).slot k =
      { r.slot k with line := l, seq := { (r.slot k).seq with runStart := run } } := by
  unfold Rack.issue
  cases (r.slot k).record with
  | none => exact ⟨(r.slot k).line, (r.slot k).seq.runStart, rfl⟩
  | some c =>
    dsimp only
    split
    · split
      · exact ⟨(r.slot k).line, (r.slot k).seq.runStart, rfl⟩
      · exact ⟨(r.slot k).line.issueHail, (r.slot k).seq.runStart, by simp⟩
      · rw [Rack.slot_modSlot_same]
        unfold issueProgram
        cases currentStep st c (r.slot k).seq with
        | none => exact ⟨(r.slot k).line, (r.slot k).seq.runStart, rfl⟩
        | some p =>
          dsimp only
          by_cases h : p.isBound = true ∧ (r.slot k).seq.index = 0 ∧ (r.slot k).seq.runStart = none
          · rw [if_pos h]; exact ⟨_, _, rfl⟩
          · rw [if_neg h]; exact ⟨_, _, rfl⟩
    · exact ⟨(r.slot k).line, (r.slot k).seq.runStart, rfl⟩

@[simp] theorem Rack.slot_issue_ne (st : Store) (r : Rack) {j k : SlotIx} (h : j ≠ k) :
    (Rack.issue st r k).slot j = r.slot j := by
  unfold Rack.issue
  cases (r.slot k).record with
  | none => rfl
  | some c => dsimp only; split <;> [cases (r.slot k).seq.mode <;> simp [h]; rfl]

/-- An issue changes nothing of the rack but its slot. -/
theorem Rack.rest_issue (st : Store) (r : Rack) (k : SlotIx) :
    (Rack.issue st r k).wide = r.wide ∧ (Rack.issue st r k).budget = r.budget ∧ (Rack.issue st r k).queue = r.queue ∧
      (Rack.issue st r k).quiesce = r.quiesce ∧ (Rack.issue st r k).bench = r.bench ∧
      (Rack.issue st r k).notices = r.notices := by
  unfold Rack.issue
  cases (r.slot k).record with
  | none => simp
  | some c => dsimp only; split <;> [cases (r.slot k).seq.mode <;> simp; simp]

/-- With the sequencer OFF nothing is issued. -/
theorem Rack.issue_off (st : Store) (r : Rack) (k : SlotIx) (h : (r.slot k).seq.mode = .off) :
    Rack.issue st r k = r := by
  unfold Rack.issue
  cases (r.slot k).record with
  | none => rfl
  | some c => simp [mayIssue, h]

/-- With an exchange in flight nothing is issued. -/
theorem Rack.issue_busy (st : Store) (r : Rack) (k : SlotIx) (h : (r.slot k).line.exchange.isSome = true) :
    Rack.issue st r k = r := by
  unfold Rack.issue
  cases (r.slot k).record with
  | none => rfl
  | some c => cases hx : (r.slot k).line.exchange <;> simp [mayIssue, hx] at h ⊢

/-! ## Grants (R123, R124) -/

@[simp] theorem Rack.slot_enterPowering_ne (st : Store) (r : Rack) {j k : SlotIx} (h : j ≠ k) :
    (Rack.enterPowering st r k).slot j = r.slot j := by
  unfold Rack.enterPowering Rack.railOn
  cases ((r.enter k .powering).slot k).record <;> simp [h]

/-- What an entry to POWERING leaves: the case in POWERING, the rail RISING at its stage's margin (R136). -/
theorem Rack.slot_enterPowering (st : Store) (r : Rack) (k : SlotIx) (c : CaseRecord)
    (hc : (r.slot k).record = some c) :
    (Rack.enterPowering st r k).slot k = { r.slot k with
      record := some { c with state := .powering }
      stamp := (r.slot k).stamp + 1
      rail := { (r.slot k).rail with
        state := .rising, margin := (caseStage st c).margin, rise := 0, sag := 0 } } := by
  simp [Rack.enterPowering, Rack.railOn, hc, caseStage, caseModel]

theorem Rack.rest_enterPowering (st : Store) (r : Rack) (k : SlotIx) :
    (Rack.enterPowering st r k).wide = r.wide ∧ (Rack.enterPowering st r k).budget = r.budget ∧
      (Rack.enterPowering st r k).queue = r.queue ∧ (Rack.enterPowering st r k).quiesce = r.quiesce ∧
      (Rack.enterPowering st r k).bench = r.bench ∧
      (Rack.enterPowering st r k).notices = (r.noticeSlot k).notices := by
  unfold Rack.enterPowering Rack.railOn
  cases ((r.enter k .powering).slot k).record <;> simp

@[simp] theorem Rack.slot_takeGrant_ne (st : Store) (r : Rack) {j k : SlotIx} (h : j ≠ k) :
    (Rack.takeGrant st r k).slot j = r.slot j := by
  unfold Rack.takeGrant
  split
  · split <;> simp [h]
  · rfl

theorem Rack.rest_takeGrant (st : Store) (r : Rack) (k : SlotIx) :
    (Rack.takeGrant st r k).wide = r.wide ∧ (Rack.takeGrant st r k).budget = r.budget ∧
      (Rack.takeGrant st r k).queue = r.queue ∧ (Rack.takeGrant st r k).quiesce = r.quiesce ∧
      (Rack.takeGrant st r k).bench = r.bench ∧ (Rack.takeGrant st r k).notices.flags = r.notices.flags := by
  unfold Rack.takeGrant
  split
  · split
    · have h := Rack.rest_issue st ((r.enter k .running).modSeq k Sequencer.startProgram) k
      simp [h]
    · have h := Rack.rest_enterPowering st r k
      simp [h]
  · simp

/-- A grant pass: the rack's other state is kept, the queue loses entries, and a slot without an entry is not touched. -/
theorem Rack.grantPassUpTo_spec (st : Store) (n : Nat) (r : Rack) :
    (Rack.grantPassUpTo st n r).wide = r.wide ∧ (Rack.grantPassUpTo st n r).budget = r.budget ∧
      (Rack.grantPassUpTo st n r).quiesce = r.quiesce ∧ (Rack.grantPassUpTo st n r).bench = r.bench ∧
      (Rack.grantPassUpTo st n r).notices.flags = r.notices.flags ∧
      (Rack.grantPassUpTo st n r).queue.Sublist r.queue ∧
      ∀ j, r.queued j = false → (Rack.grantPassUpTo st n r).slot j = r.slot j := by
  induction n generalizing r with
  | zero => simp [Rack.grantPassUpTo]
  | succ n ih =>
    unfold Rack.grantPassUpTo
    cases hq : r.queue with
    | nil => simp [hq]
    | cons e rest =>
      dsimp only
      split
      · obtain ⟨h1, h2, h3, h4, h5, h6, h7⟩ :=
          ih (Rack.takeGrant st (({ r with queue := rest } : Rack).setUnits e.slot e.need) e.slot)
        obtain ⟨g1, g2, g3, g4, g5, g6⟩ :=
          Rack.rest_takeGrant st (({ r with queue := rest } : Rack).setUnits e.slot e.need) e.slot
        refine ⟨by rw [h1, g1]; rfl, by rw [h2, g2]; rfl, by rw [h3, g4]; rfl, by rw [h4, g5]; rfl,
          by rw [h5, g6]; rfl, ?_, ?_⟩
        · rw [g3] at h6
          exact h6.trans (List.sublist_cons_self e rest)
        · intro j hj
          have hne : j ≠ e.slot := by
            intro h; subst h; simp [Rack.queued, hq] at hj
          have hj' : (Rack.takeGrant st (({ r with queue := rest } : Rack).setUnits e.slot e.need) e.slot).queued j
              = false := by
            unfold Rack.queued; rw [g3]
            simp only [Rack.queued, hq, List.any_cons, Bool.or_eq_false_iff] at hj
            exact hj.2
          rw [h7 j hj', Rack.slot_takeGrant_ne st _ hne, Rack.slot_setUnits_ne _ _ hne]
          simp
      · exact ⟨rfl, rfl, rfl, rfl, rfl, by rw [hq], fun _ _ => rfl⟩

theorem Rack.grantPass_spec (st : Store) (r : Rack) :
    (Rack.grantPass st r).wide = r.wide ∧ (Rack.grantPass st r).budget = r.budget ∧
      (Rack.grantPass st r).quiesce = r.quiesce ∧ (Rack.grantPass st r).bench = r.bench ∧
      (Rack.grantPass st r).notices.flags = r.notices.flags ∧ (Rack.grantPass st r).queue.Sublist r.queue ∧
      ∀ j, r.queued j = false → (Rack.grantPass st r).slot j = r.slot j :=
  Rack.grantPassUpTo_spec st r.queue.length r

/-- With an empty queue a grant pass does nothing. -/
theorem Rack.grantPass_nil (st : Store) (r : Rack) (h : r.queue = []) : Rack.grantPass st r = r := by
  simp [Rack.grantPass, h, Rack.grantPassUpTo]

/-- A head that does not fit blocks the pass (R123). -/
theorem Rack.grantPass_blocked (st : Store) (r : Rack) {e : QueueEntry} {rest : List QueueEntry}
    (h : r.queue = e :: rest) (hn : r.freeUnits < e.need) : Rack.grantPass st r = r := by
  have hn' : ¬ e.need ≤ r.freeUnits := by omega
  simp [Rack.grantPass, h, Rack.grantPassUpTo, hn']

/-- After its entry is removed a slot is not queued. -/
theorem Rack.queued_giveBack (r : Rack) (k : SlotIx) : (r.giveBack k).queued k = false := by
  simp [Rack.queued]

/-- A slot not queued stays so when the queue loses entries. -/
theorem Rack.queued_of_sublist {r r' : Rack} (h : r'.queue.Sublist r.queue) {k : SlotIx} (hk : r.queued k = false) :
    r'.queued k = false := by
  simp only [Rack.queued, List.any_eq_false] at hk ⊢
  exact fun e he => hk e (h.subset he)

/-! ## The bench and the quiesce at a boundary -/

@[simp] theorem Rack.slot_benchGrant_ne (r : Rack) {j k : SlotIx} (h : j ≠ k) :
    (r.benchGrant k).slot j = r.slot j := by simp [Rack.benchGrant, h]

@[simp] theorem Rack.slot_benchGrant_same (r : Rack) (k : SlotIx) :
    (r.benchGrant k).slot k = { r.slot k with line := { (r.slot k).line with state := .passed, sure := false } } := by
  simp [Rack.benchGrant]

/-- A pending HOLD changes at most the line of its slot. -/
theorem Rack.slot_grantPending (r : Rack) (j : SlotIx) :
    r.grantPending.slot j = r.slot j ∨ r.isPending j = true ∧
      r.grantPending.slot j = { r.slot j with line := { (r.slot j).line with state := .passed, sure := false } } := by
  unfold Rack.grantPending
  cases hb : r.bench.state with
  | idle => exact .inl rfl
  | granted i => exact .inl rfl
  | pending i =>
    dsimp only
    split
    · by_cases h : j = i
      · subst h; exact .inr ⟨by simp [Rack.isPending, hb], by simp⟩
      · exact .inl (by simp [h])
    · exact .inl rfl

theorem Rack.rest_grantPending (r : Rack) :
    r.grantPending.wide = r.wide ∧ r.grantPending.budget = r.budget ∧ r.grantPending.queue = r.queue ∧
      r.grantPending.quiesce = r.quiesce ∧ r.grantPending.notices.flags = r.notices.flags := by
  unfold Rack.grantPending
  cases hb : r.bench.state with
  | idle => simp
  | granted i => simp
  | pending i => dsimp only; split <;> simp [Rack.benchGrant]

theorem Rack.grantPending_idle (r : Rack) (h : r.bench.state = .idle) : r.grantPending = r := by
  simp [Rack.grantPending, h]

theorem Rack.grantPending_granted (r : Rack) (k : SlotIx) (h : r.bench.state = .granted k) : r.grantPending = r := by
  simp [Rack.grantPending, h]

@[simp] theorem Rack.slot_checkQuiesced (r : Rack) (j : SlotIx) : r.checkQuiesced.slot j = r.slot j := by
  unfold Rack.checkQuiesced; split <;> simp

theorem Rack.rest_checkQuiesced (r : Rack) :
    r.checkQuiesced.wide = r.wide ∧ r.checkQuiesced.budget = r.budget ∧ r.checkQuiesced.queue = r.queue ∧
      r.checkQuiesced.bench = r.bench ∧ r.checkQuiesced.notices.slots = r.notices.slots ∧
      r.checkQuiesced.slots = r.slots := by
  unfold Rack.checkQuiesced; split <;> simp [Rack.noticeFlag]

theorem Rack.checkQuiesced_active (r : Rack) (h : r.quiesce = .active) : r.checkQuiesced = r := by
  simp [Rack.checkQuiesced, h]

/-- A slot that is not draining has no advance to take. -/
theorem Rack.takeOrHoldAdvance_still (st : Store) (r : Rack) (k : SlotIx)
    (h : (r.slot k).stay.draining = false ∨ (r.slot k).seq.mode ≠ .program ∨ (r.slot k).atBoundary = false) :
    Rack.takeOrHoldAdvance st r k = r := by
  unfold Rack.takeOrHoldAdvance
  rw [if_neg]
  rintro ⟨h1, h2, h3⟩
  rcases h with h | h | h
  · simp [h] at h1
  · exact h h2
  · simp [h] at h3

/-- What follows in a slot that takes no advance: of every slot at most the line and the run start may change, of another
slot only the line of the pending one. -/
theorem Rack.proceed_still (st : Store) (r : Rack) (k : SlotIx)
    (h : (r.slot k).stay.draining = false ∨ (r.slot k).seq.mode ≠ .program ∨ (r.slot k).atBoundary = false) :
    (Rack.proceed st r k).wide = r.wide ∧ (Rack.proceed st r k).budget = r.budget ∧
      (Rack.proceed st r k).queue = r.queue ∧
      (∃ (l : Line) (run : Option Nat), (Rack.proceed st r k).slot k =
        { r.slot k with line := l, seq := { (r.slot k).seq with runStart := run } }) ∧
      ∀ j, j ≠ k → r.isPending j = false → (Rack.proceed st r k).slot j = r.slot j := by
  unfold Rack.proceed
  rw [Rack.takeOrHoldAdvance_still st r k h]
  obtain ⟨g1, g2, g3, g4, g5⟩ := Rack.rest_grantPending r
  obtain ⟨i1, i2, i3, i4, i5, i6⟩ := Rack.rest_issue st r.grantPending k
  obtain ⟨c1, c2, c3, c4, c5, c6⟩ := Rack.rest_checkQuiesced (Rack.issue st r.grantPending k)
  refine ⟨by rw [c1, i1, g1], by rw [c2, i2, g2], by rw [c3, i3, g3], ?_, ?_⟩
  · obtain ⟨l, run, hl⟩ := Rack.slot_issue st r.grantPending k
    rw [Rack.slot_checkQuiesced, hl]
    rcases Rack.slot_grantPending r k with hg | ⟨_, hg⟩ <;> rw [hg] <;> exact ⟨_, _, rfl⟩
  · intro j hj hp
    rw [Rack.slot_checkQuiesced, Rack.slot_issue_ne st _ hj]
    rcases Rack.slot_grantPending r j with hg | ⟨hp', _⟩
    · exact hg
    · simp [hp] at hp'

/-- With the sequencer OFF and no exchange in flight, what follows leaves both so. -/
theorem Rack.proceed_off (st : Store) (r : Rack) (k : SlotIx) (h : (r.slot k).seq.mode = .off) :
    ((Rack.proceed st r k).slot k).seq = (r.slot k).seq ∧
      ((Rack.proceed st r k).slot k).line.exchange = (r.slot k).line.exchange ∧
      ((r.slot k).line.sure = false → ((Rack.proceed st r k).slot k).line.sure = false) := by
  unfold Rack.proceed
  rw [Rack.takeOrHoldAdvance_still st r k (.inr (.inl (by simp [h])))]
  have hg : (r.grantPending.slot k).seq.mode = .off := by
    rcases Rack.slot_grantPending r k with hg | ⟨_, hg⟩ <;> rw [hg] <;> exact h
  rw [Rack.issue_off st _ k hg, Rack.slot_checkQuiesced]
  rcases Rack.slot_grantPending r k with hg | ⟨_, hg⟩ <;> rw [hg]
  · exact ⟨rfl, rfl, id⟩
  · exact ⟨rfl, rfl, fun _ => rfl⟩

/-! ## The end of a run, with the grant pass and with what follows (R7, R126, R206) -/

theorem Rack.rest_dropRun (r : Rack) (k : SlotIx) :
    (r.dropRun k).wide = r.wide ∧ (r.dropRun k).budget = r.budget ∧ (r.dropRun k).queue = r.queue ∧
      (r.dropRun k).quiesce = r.quiesce ∧ (r.dropRun k).bench = r.bench ∧ (r.dropRun k).notices = r.notices := by
  simp

/-- A run ends: what its slot is left as, and what of the rack may change. -/
theorem Rack.endRun_spec (st : Store) (r : Rack) (k : SlotIx) (cs : CaseState) :
    (r.endRun st k cs).slot k = { (r.dropRun k).slot k with
        record := (r.slot k).record.map fun c => { c with state := cs }
        stamp := (r.slot k).stamp + 1
        units := 0 } ∧
      (r.endRun st k cs).wide = r.wide ∧ (r.endRun st k cs).budget = r.budget ∧
      (r.endRun st k cs).quiesce = r.quiesce ∧ (r.endRun st k cs).bench = r.bench ∧
      (r.endRun st k cs).notices.flags = r.notices.flags ∧ (r.endRun st k cs).queue.Sublist r.queue ∧
      (r.endRun st k cs).queued k = false ∧
      ∀ j, j ≠ k → r.queued j = false → (r.endRun st k cs).slot j = r.slot j := by
  have q : (((r.dropRun k).giveBack k).enter k cs).queued k = false := by simp [Rack.queued]
  obtain ⟨g1, g2, g3, g4, g5, g6, g7⟩ := Rack.grantPass_spec st (((r.dropRun k).giveBack k).enter k cs)
  refine ⟨?_, by rw [Rack.endRun, g1]; simp, by rw [Rack.endRun, g2]; simp, by rw [Rack.endRun, g3]; simp,
    by rw [Rack.endRun, g4]; simp, by rw [Rack.endRun, g5]; simp, ?_, Rack.queued_of_sublist g6 q, ?_⟩
  · rw [Rack.endRun, g7 k q]; simp
  · exact g6.trans (by simp)
  · intro j hj hq
    rw [Rack.endRun, g7 j]
    · simp [hj]
    · simp only [Rack.queued, List.any_eq_false] at hq ⊢
      intro e he
      simp at he
      exact hq e he.1

/-- A run ends and what follows is done: of its slot only the line differs from what the end left, with no exchange. -/
theorem Rack.endRun_proceed_spec (st : Store) (r : Rack) (k : SlotIx) (cs : CaseState) :
    (∃ l : Line, l.exchange = none ∧ l.sure = false ∧ ((r.endRun st k cs).proceed st k).slot k = { (r.dropRun k).slot k with
        record := (r.slot k).record.map fun c => { c with state := cs }
        stamp := (r.slot k).stamp + 1
        units := 0
        line := l }) ∧
      ((r.endRun st k cs).proceed st k).wide = r.wide ∧ ((r.endRun st k cs).proceed st k).budget = r.budget ∧
      ((r.endRun st k cs).proceed st k).queue.Sublist r.queue ∧
      ((r.endRun st k cs).proceed st k).queued k = false ∧
      ∀ j, j ≠ k → r.queued j = false → r.isPending j = false →
        ((r.endRun st k cs).proceed st k).slot j = r.slot j := by
  obtain ⟨e1, e2, e3, e4, e5, e6, e7, e8, e9⟩ := Rack.endRun_spec st r k cs
  have hm : ((r.endRun st k cs).slot k).seq.mode = .off := by rw [e1]; simp
  have hm' : ((r.endRun st k cs).slot k).seq.mode ≠ .program := by simp [hm]
  obtain ⟨p1, p2, p3, ⟨l, run, p4⟩, p5⟩ := Rack.proceed_still st (r.endRun st k cs) k (.inr (.inl hm'))
  obtain ⟨o1, o2, o3⟩ := Rack.proceed_off st (r.endRun st k cs) k hm
  refine ⟨⟨l, ?_, ?_, ?_⟩, by rw [p1, e2], by rw [p2, e3], by rw [p3]; exact e7, ?_, ?_⟩
  · rw [p4, e1] at o2; simpa using o2
  · rw [p4, e1] at o3; simpa using o3
  · have : run = ((r.endRun st k cs).slot k).seq.runStart := by
      rw [p4] at o1; exact congrArg Sequencer.runStart o1
    rw [p4, this, e1]
  · simpa only [Rack.queued, p3] using e8
  · intro j hj hq hp
    rw [p5 j hj (by simpa only [Rack.isPending, e5] using hp), e9 j hj hq]

/-! ## Slots stay in the notice set (R224) -/

theorem Rack.hasSlot_issue (st : Store) (r : Rack) (j k : SlotIx) :
    (Rack.issue st r k).notices.hasSlot j = r.notices.hasSlot j := by
  rw [(Rack.rest_issue st r k).2.2.2.2.2]

theorem Rack.hasSlot_takeGrant (st : Store) (r : Rack) (j k : SlotIx) (h : r.notices.hasSlot j = true) :
    (Rack.takeGrant st r k).notices.hasSlot j = true := by
  unfold Rack.takeGrant
  split
  · split
    · rw [Rack.hasSlot_issue]; simp [h]
    · rw [(Rack.rest_enterPowering st r k).2.2.2.2.2]; simp [h]
  · exact h

theorem Rack.hasSlot_grantPassUpTo (st : Store) (n : Nat) (r : Rack) (j : SlotIx) (h : r.notices.hasSlot j = true) :
    (Rack.grantPassUpTo st n r).notices.hasSlot j = true := by
  induction n generalizing r with
  | zero => exact h
  | succ n ih =>
    unfold Rack.grantPassUpTo
    split
    · exact h
    · split
      · exact ih _ (Rack.hasSlot_takeGrant st _ j _ h)
      · exact h

theorem Rack.hasSlot_grantPass (st : Store) (r : Rack) (j : SlotIx) (h : r.notices.hasSlot j = true) :
    (Rack.grantPass st r).notices.hasSlot j = true :=
  Rack.hasSlot_grantPassUpTo st _ r j h

theorem Rack.hasSlot_grantPending (r : Rack) (j : SlotIx) (h : r.notices.hasSlot j = true) :
    r.grantPending.notices.hasSlot j = true := by
  unfold Rack.grantPending
  split
  · split
    · simp [Rack.benchGrant, h]
    · exact h
  · exact h
  · exact h

theorem Rack.hasSlot_checkQuiesced (r : Rack) (j : SlotIx) :
    r.checkQuiesced.notices.hasSlot j = r.notices.hasSlot j := by
  unfold NoticeSet.hasSlot
  rw [(Rack.rest_checkQuiesced r).2.2.2.2.1]

/-- A run that ends puts its slot into the notice set (R6, R7). -/
theorem Rack.hasSlot_endRun (st : Store) (r : Rack) (k : SlotIx) (cs : CaseState) :
    (r.endRun st k cs).notices.hasSlot k = true :=
  Rack.hasSlot_grantPass st _ k (by simp)

/-- What follows in a slot that takes no advance leaves the notices of slots in the set. -/
theorem Rack.hasSlot_proceed_still (st : Store) (r : Rack) (j k : SlotIx) (h : r.notices.hasSlot j = true)
    (still : (r.slot k).stay.draining = false ∨ (r.slot k).seq.mode ≠ .program ∨ (r.slot k).atBoundary = false) :
    (Rack.proceed st r k).notices.hasSlot j = true := by
  unfold Rack.proceed
  rw [Rack.takeOrHoldAdvance_still st r k still, Rack.hasSlot_checkQuiesced, Rack.hasSlot_issue]
  exact Rack.hasSlot_grantPending r j h

end Sys2Proof.Machine
end

