-- ==== Sys2Proof/Laws/Pool.lean ====
section
/-! SUPPORT. What an evidence item can do: it changes stamps and the suspect side of case records, and nothing else but the
notice set; which pool entry is found for a new suspect; which operations hand no evidence; and a pending HOLD at a boundary. -/

namespace Sys2Proof.Machine

/-- A record changed by evidence alone: its list, serials, unplaced count and pool-full flag, and the verdict of a DONE
case. -/
def CaseRecord.evidence (c c' : CaseRecord) : Prop :=
  c' = { c with state := c'.state, suspects := c'.suspects, nextSerial := c'.nextSerial, unplaced := c'.unplaced,
                poolFull := c'.poolFull } ∧
    ((∀ e v, c.state ≠ .done e v) → c'.state = c.state) ∧
    ∀ e v, c.state = .done e v → ∃ v', c'.state = .done e v'

/-- A slot changed by evidence alone. -/
def Slot.evidence (a b : Slot) : Prop :=
  b = { a with stamp := b.stamp, record := b.record } ∧ (a.record = none → b.record = none) ∧
    ∀ c, a.record = some c → ∃ c', b.record = some c' ∧ CaseRecord.evidence c c'

/-- A rack changed by evidence alone. -/
def Rack.evidence (r r' : Rack) : Prop :=
  r'.wide = r.wide ∧ r'.budget = r.budget ∧ r'.queue = r.queue ∧ r'.quiesce = r.quiesce ∧ r'.bench = r.bench ∧
    r'.notices.flags = r.notices.flags ∧ ∀ j, Slot.evidence (r.slot j) (r'.slot j)

theorem CaseRecord.evidence_refl (c : CaseRecord) : c.evidence c := ⟨rfl, fun _ => rfl, fun _ v h => ⟨v, h⟩⟩

theorem CaseRecord.evidence_trans {a b c : CaseRecord} (h : a.evidence b) (g : b.evidence c) : a.evidence c := by
  obtain ⟨h1, h2, h3⟩ := h
  obtain ⟨g1, g2, g3⟩ := g
  refine ⟨by rw [g1, h1], ?_, ?_⟩
  · intro hd
    have := h2 hd
    rw [g2 (by rw [this]; exact hd), this]
  · intro e v hd
    obtain ⟨v', hv⟩ := h3 e v hd
    exact g3 e v' hv

theorem Slot.evidence_refl (a : Slot) : a.evidence a := ⟨rfl, id, fun c h => ⟨c, h, c.evidence_refl⟩⟩

theorem Slot.evidence_trans {a b c : Slot} (h : a.evidence b) (g : b.evidence c) : a.evidence c := by
  obtain ⟨h1, h2, h3⟩ := h
  obtain ⟨g1, g2, g3⟩ := g
  refine ⟨by rw [g1, h1], fun n => g2 (h2 n), ?_⟩
  intro x hx
  obtain ⟨y, hy, hxy⟩ := h3 x hx
  obtain ⟨z, hz, hyz⟩ := g3 y hy
  exact ⟨z, hz, CaseRecord.evidence_trans hxy hyz⟩

theorem Rack.evidence_refl (r : Rack) : r.evidence r := ⟨rfl, rfl, rfl, rfl, rfl, rfl, fun j => (r.slot j).evidence_refl⟩

theorem Rack.evidence_trans {a b c : Rack} (h : a.evidence b) (g : b.evidence c) : a.evidence c := by
  obtain ⟨h1, h2, h3, h4, h5, h6, h7⟩ := h
  obtain ⟨g1, g2, g3, g4, g5, g6, g7⟩ := g
  exact ⟨by rw [g1, h1], by rw [g2, h2], by rw [g3, h3], by rw [g4, h4], by rw [g5, h5], by rw [g6, h6],
    fun j => Slot.evidence_trans (h7 j) (g7 j)⟩

theorem CaseRecord.evidence_withList (c : CaseRecord) (l : List Suspect) : c.evidence (c.withList l) := by
  refine ⟨rfl, ?_, ?_⟩
  · intro h
    cases hs : c.state <;> simp [CaseRecord.withList, hs, CaseState.withVerdict]
    exact absurd hs (h _ _)
  · intro e v h
    exact ⟨verdictOf l, by simp [CaseRecord.withList, h, CaseState.withVerdict]⟩

/-- A change of one slot's record that is evidence. -/
theorem Rack.evidence_modCase (r : Rack) (k : SlotIx) (f : CaseRecord → CaseRecord) (h : ∀ c : CaseRecord, CaseRecord.evidence c (f c)) :
    r.evidence (r.modCase k f) := by
  refine ⟨rfl, rfl, rfl, rfl, rfl, rfl, fun j => ?_⟩
  by_cases hj : j = k
  · subst hj
    rw [Rack.slot_modCase_same]
    refine ⟨rfl, fun n => by simp [n], fun c hc => ⟨f c, by simp [hc], h c⟩⟩
  · rw [Rack.slot_modCase_ne _ _ hj]; exact Slot.evidence_refl _

theorem Rack.evidence_stamp (r : Rack) (k : SlotIx) : r.evidence (r.stamp k) := by
  refine ⟨rfl, rfl, rfl, rfl, rfl, rfl, fun j => ?_⟩
  by_cases hj : j = k
  · subst hj
    rw [Rack.slot_stamp_same]
    exact ⟨rfl, id, fun c hc => ⟨c, hc, c.evidence_refl⟩⟩
  · rw [Rack.slot_stamp_ne _ hj]; exact Slot.evidence_refl _

theorem Rack.evidence_noticeSlot (r : Rack) (k : SlotIx) : r.evidence (r.noticeSlot k) :=
  ⟨rfl, rfl, rfl, rfl, rfl, rfl, fun j => by rw [Rack.slot_noticeSlot]; exact Slot.evidence_refl _⟩

theorem Rack.evidence_setList (r : Rack) (k : SlotIx) (l : List Suspect) : r.evidence (r.setList k l) :=
  Rack.evidence_modCase r k _ fun c => c.evidence_withList l

theorem Rack.evidence_noticeConfirmed (r : Rack) (k : SlotIx) (b : Option SuspectState) (a : SuspectState) :
    r.evidence (r.noticeConfirmed k b a) := by
  unfold Rack.noticeConfirmed
  split
  · exact r.evidence_noticeSlot k
  · exact r.evidence_refl

theorem Rack.evidence_findEntry (r : Rack) (k : SlotIx) (r' : Rack) (h : r.findEntry k = some r') : r.evidence r' := by
  unfold Rack.findEntry at h
  split at h
  · cases h; exact r.evidence_refl
  · split at h
    · cases h; exact r.evidence_setList k _
    · split at h
      · cases h
      · split at h
        · cases h
        · cases h; exact Rack.evidence_trans (r.evidence_setList _ _) (Rack.evidence_stamp _ _)

theorem Rack.evidence_createSuspect (st : Store) (r : Rack) (k : SlotIx) (n : Nat) (f : Fail) :
    r.evidence (r.createSuspect st k n f) := by
  unfold Rack.createSuspect
  split
  · exact r.evidence_refl
  · refine Rack.evidence_trans (r.evidence_setList k _) (Rack.evidence_trans (Rack.evidence_modCase _ k _ ?_)
      (Rack.evidence_noticeConfirmed _ _ _ _))
    intro c
    exact ⟨rfl, fun _ => rfl, fun _ v h => ⟨v, h⟩⟩

theorem Rack.evidence_takeFail (st : Store) (r : Rack) (k : SlotIx) (n : Nat) (f : Fail) (r' : Rack) (b : Bool)
    (h : r.takeFail st k n f = some (r', b)) : r.evidence r' := by
  unfold Rack.takeFail at h
  split at h
  · cases h; exact r.evidence_refl
  · split at h
    · cases h; exact r.evidence_refl
    · split at h
      · cases h; exact Rack.evidence_trans (r.evidence_setList k _) (Rack.evidence_noticeConfirmed _ _ _ _)
      · cases he : r.findEntry k with
        | none => simp [he] at h
        | some r1 =>
          simp [he] at h
          obtain ⟨h, _⟩ := h
          subst h
          exact Rack.evidence_trans (r.evidence_findEntry k r1 he) (Rack.evidence_createSuspect st r1 k n f)

theorem Rack.evidence_unplaced (r : Rack) (k : SlotIx) : r.evidence (r.unplaced k) := by
  unfold Rack.unplaced
  split
  · exact r.evidence_refl
  · have h : r.evidence (r.modCase k fun c => { c with unplaced := bump Config.max8 c.unplaced, poolFull := true }) :=
      Rack.evidence_modCase r k _ fun c => ⟨rfl, fun _ => rfl, fun _ v h => ⟨v, h⟩⟩
    dsimp only
    split
    · exact h
    · exact Rack.evidence_trans h (Rack.evidence_noticeSlot _ _)

/-- A FAIL item (R39 to R44, R52). -/
theorem Rack.evidence_failItem (st : Store) (r : Rack) (k : SlotIx) (n : Nat) (f : Fail) :
    r.evidence (r.failItem st k n f) := by
  unfold Rack.failItem
  cases h : r.takeFail st k n f with
  | none => exact r.evidence_unplaced k
  | some p =>
    obtain ⟨r', b⟩ := p
    dsimp only
    have he := r.evidence_takeFail st k n f r' b h
    split
    · exact Rack.evidence_trans he (Rack.evidence_stamp _ _)
    · exact he

/-- A FAIL item of this moment (R187). -/
theorem Rack.evidence_failNow (st : Store) (r : Rack) (k : SlotIx) (n : Nat) (y : Symptom) :
    r.evidence (r.failNow st k n y) := r.evidence_failItem st k n _

/-- A PASS item (R45). -/
theorem Rack.evidence_passItem (st : Store) (r : Rack) (k : SlotIx) (n : Nat) : r.evidence (r.passItem st k n) := by
  unfold Rack.passItem
  split
  · exact r.evidence_refl
  · split
    · exact r.evidence_refl
    · dsimp only
      split
      · exact r.evidence_setList k _
      · exact Rack.evidence_trans (r.evidence_setList k _) (Rack.evidence_stamp _ _)

/-- A slot with no suspects is not changed by a PASS item (R45). -/
theorem Rack.passItem_none (st : Store) (r : Rack) (k : SlotIx) (n : Nat) (c : CaseRecord)
    (hc : (r.slot k).record = some c) (h : c.suspects = []) : r.passItem st k n = r := by
  simp [Rack.passItem, hc, h, suspectFor]

/-! ## Reclamation (R49 to R52) -/

/-- No suspect can give up its entry exactly when none is CLEARED or REWORKED. -/
theorem giveUpLowest_none (l : List Suspect) : giveUpLowest l = none ↔ ∀ x ∈ l, x.reclaimable = false := by
  induction l with
  | nil => simp [giveUpLowest]
  | cons x xs ih =>
    unfold giveUpLowest
    cases h : giveUpLowest xs with
    | some ys =>
      have : ¬ ∀ y ∈ xs, y.reclaimable = false := fun a => by rw [ih.mpr a] at h; simp at h
      simp only [reduceCtorEq, List.mem_cons, forall_eq_or_imp, false_iff, not_and]
      exact fun _ => this
    | none =>
      have hx := ih.mp h
      cases hr : x.reclaimable <;> simp [hr]
      exact hx

/-- The suspect that gives up its entry is the last CLEARED or REWORKED one of the list (R50). -/
theorem giveUpLowest_some {l l' : List Suspect} (h : giveUpLowest l = some l') :
    ∃ (l₁ l₂ : List Suspect) (y : Suspect), l = l₁ ++ y :: l₂ ∧ y.reclaimable = true ∧
      (∀ x ∈ l₂, x.reclaimable = false) ∧ l' = l₁ ++ l₂ := by
  induction l generalizing l' with
  | nil => simp [giveUpLowest] at h
  | cons x xs ih =>
    unfold giveUpLowest at h
    cases hx : giveUpLowest xs with
    | some ys =>
      rw [hx] at h
      simp only [Option.some.injEq] at h
      obtain ⟨l₁, l₂, y, e, hy, hl, e'⟩ := ih hx
      exact ⟨x :: l₁, l₂, y, by rw [e]; rfl, hy, hl, by rw [← h, e']; rfl⟩
    | none =>
      rw [hx] at h
      cases hr : x.reclaimable with
      | false => simp [hr] at h
      | true =>
        simp only [hr, if_true, Option.some.injEq] at h
        exact ⟨[], xs, x, rfl, hr, (giveUpLowest_none xs).mp hx, h.symm⟩

theorem giveUpLowest_split {l₁ l₂ : List Suspect} {y : Suspect} (hy : y.reclaimable = true)
    (hl : ∀ x ∈ l₂, x.reclaimable = false) : giveUpLowest (l₁ ++ y :: l₂) = some (l₁ ++ l₂) := by
  induction l₁ with
  | nil => simp [giveUpLowest, (giveUpLowest_none l₂).mpr hl, hy]
  | cons x xs ih => simp [giveUpLowest, ih]

/-- A fold that keeps the best candidate so far, a later one only when it is greater, ends in the greatest candidate, the
first among equals. -/
theorem foldl_best (cand : SlotIx → Prop) [DecidablePred cand] (n : SlotIx → Nat) (l seen : List SlotIx)
    (best : Option SlotIx) (up : (seen ++ l).Pairwise (· ≤ ·))
    (none' : best = none → ∀ i ∈ seen, ¬ cand i)
    (some' : ∀ j, best = some j → j ∈ seen ∧ cand j ∧ ∀ i ∈ seen, cand i → n i < n j ∨ n i = n j ∧ j ≤ i) :
    let out := l.foldl (init := best) fun best j =>
      if cand j then
        match best with
        | none => some j
        | some i => if n i < n j then some j else some i
      else best
    (out = none → ∀ i ∈ seen ++ l, ¬ cand i) ∧
      ∀ j, out = some j → cand j ∧ ∀ i ∈ seen ++ l, cand i → n i < n j ∨ n i = n j ∧ j ≤ i := by
  induction l generalizing seen best with
  | nil =>
    simp only [List.foldl_nil, List.append_nil]
    exact ⟨none', fun j h => (some' j h).2⟩
  | cons a l ih =>
    rw [List.foldl_cons]
    have up' : ((seen ++ [a]) ++ l).Pairwise (· ≤ ·) := by simpa using up
    have below : ∀ i ∈ seen, i ≤ a := fun i hi => (List.pairwise_append.mp up).2.2 i hi a (by simp)
    have main := fun b h1 h2 => ih (seen ++ [a]) b up' h1 h2
    have shape : seen ++ a :: l = (seen ++ [a]) ++ l := by simp
    rw [shape]
    by_cases ha : cand a
    · rw [if_pos ha]
      cases hb : best with
      | none =>
        refine main (some a) (by simp) fun j hj => ?_
        obtain rfl : a = j := by simpa using hj
        refine ⟨by simp, ha, fun i hi hc => ?_⟩
        rcases List.mem_append.mp hi with hi | hi
        · exact absurd hc (none' hb i hi)
        · obtain rfl : i = a := by simpa using hi
          exact .inr ⟨rfl, le_refl _⟩
      | some b =>
        obtain ⟨hm, hcb, hall⟩ := some' b hb
        dsimp only
        split
        · next hlt =>
          refine main (some a) (by simp) fun j hj => ?_
          obtain rfl : a = j := by simpa using hj
          refine ⟨by simp, ha, fun i hi hc => ?_⟩
          rcases List.mem_append.mp hi with hi | hi
          · rcases hall i hi hc with h | ⟨h, _⟩ <;> exact .inl (by omega)
          · obtain rfl : i = a := by simpa using hi
            exact .inr ⟨rfl, le_refl _⟩
        · next hge =>
          refine main (some b) (by simp) fun j hj => ?_
          obtain rfl : b = j := by simpa using hj
          refine ⟨List.mem_append_left _ hm, hcb, fun i hi hc => ?_⟩
          rcases List.mem_append.mp hi with hi | hi
          · exact hall i hi hc
          · obtain rfl : i = a := by simpa using hi
            rcases Nat.lt_or_ge (n i) (n b) with h | h
            · exact .inl h
            · exact .inr ⟨by omega, below _ hm⟩
    · rw [if_neg ha]
      refine main best (fun hn i hi => ?_) fun j hj => ?_
      · rcases List.mem_append.mp hi with hi | hi
        · exact none' hn i hi
        · obtain rfl : i = a := by simpa using hi
          exact ha
      · obtain ⟨hm, hc, hall⟩ := some' j hj
        refine ⟨List.mem_append_left _ hm, hc, fun i hi hci => ?_⟩
        rcases List.mem_append.mp hi with hi | hi
        · exact hall i hi hci
        · obtain rfl : i = a := by simpa using hi
          exact absurd hci ha

/-- The second step's case (R51). -/
theorem Rack.donor_spec (r : Rack) (k : SlotIx) :
    (r.donor k = none → ∀ i, i ≠ k → ∀ x ∈ (r.slot i).suspects, x.reclaimable = false) ∧
      ∀ j, r.donor k = some j → j ≠ k ∧ (∃ x ∈ (r.slot j).suspects, x.reclaimable = true) ∧
        ∀ i, i ≠ k → (∃ x ∈ (r.slot i).suspects, x.reclaimable = true) →
          (r.slot i).suspectCount < (r.slot j).suspectCount ∨
            (r.slot i).suspectCount = (r.slot j).suspectCount ∧ j ≤ i := by
  have main := foldl_best (fun j => j ≠ k ∧ (r.slot j).suspects.any Suspect.reclaimable = true)
    (fun j => (r.slot j).suspectCount) allSlots [] none (by decide) (by simp) (by simp)
  obtain ⟨h1, h2⟩ := main
  refine ⟨fun h i hi x hx => ?_, fun j h => ?_⟩
  · have := h1 h i (by simpa using mem_allSlots i)
    cases hr : x.reclaimable with
    | false => rfl
    | true => exact absurd ⟨hi, List.any_eq_true.mpr ⟨x, hx, hr⟩⟩ this
  · obtain ⟨⟨hj, hc⟩, hall⟩ := h2 j h
    refine ⟨hj, List.any_eq_true.mp hc, fun i hi hx => ?_⟩
    exact hall i (by simpa using mem_allSlots i) ⟨hi, List.any_eq_true.mpr hx⟩

theorem Rack.entryFound_of_findEntry {r r' : Rack} {k : SlotIx} (h : r.findEntry k = some r') :
    r.entryFound r' k := by
  unfold Rack.findEntry at h
  split at h
  · next free => exact .inl ⟨free, (Option.some.inj h).symm⟩
  · next full =>
    have full' : r.freeEntries = 0 := by omega
    split at h
    · next l hl =>
      obtain ⟨l₁, l₂, y, e, hy, hlast, rfl⟩ := giveUpLowest_some hl
      exact .inr (.inl ⟨full', l₁, l₂, y, e, hy, hlast, (Option.some.inj h).symm⟩)
    · next hl =>
      split at h
      · simp at h
      · next j hd =>
        split at h
        · simp at h
        · next l hj =>
          obtain ⟨l₁, l₂, y, e, hy, hlast, rfl⟩ := giveUpLowest_some hj
          obtain ⟨hne, _, hmax⟩ := (r.donor_spec k).2 j hd
          exact .inr (.inr ⟨full', (giveUpLowest_none _).mp hl, j, l₁, l₂, y, hne, e, hy, hlast, hmax,
            (Option.some.inj h).symm⟩)

theorem Rack.findEntry_of_entryFound {r r' : Rack} {k : SlotIx} (h : r.entryFound r' k) :
    r.findEntry k = some r' := by
  unfold Rack.findEntry
  rcases h with ⟨free, rfl⟩ | ⟨full, l₁, l₂, y, e, hy, hl, rfl⟩ | ⟨full, own, j, l₁, l₂, y, hj, e, hy, hl, hmax, rfl⟩
  · rw [if_pos free]
  · rw [if_neg (by omega), e, giveUpLowest_split hy hl]
  · rw [if_neg (by omega), (giveUpLowest_none _).mpr own]
    have mem : y ∈ (r.slot j).suspects := by rw [e]; simp
    have hd : r.donor k = some j := by
      obtain ⟨d1, d2⟩ := r.donor_spec k
      cases hd : r.donor k with
      | none => have := d1 hd j hj y mem; simp [hy] at this
      | some i =>
        obtain ⟨hi, hx, hbest⟩ := d2 i hd
        have h1 := hmax i hi hx
        have h2 := hbest j hj ⟨y, mem, hy⟩
        rcases h1 with a | ⟨a, b⟩ <;> rcases h2 with c | ⟨c, d⟩
        · exact (Nat.lt_asymm a c).elim
        · exact absurd c (Nat.ne_of_gt a)
        · exact absurd a (Nat.ne_of_gt c)
        · rw [le_antisymm d b]
    simp only [hd, e, giveUpLowest_split hy hl]

/-- The entry that is found for a new suspect (R49 to R51). -/
theorem Rack.findEntry_some {r r' : Rack} {k : SlotIx} : r.findEntry k = some r' ↔ r.entryFound r' k :=
  ⟨Rack.entryFound_of_findEntry, Rack.findEntry_of_entryFound⟩

/-- No entry is found exactly when none is free and no suspect in the pool can give one up (R52). -/
theorem Rack.findEntry_none {r : Rack} {k : SlotIx} : r.findEntry k = none ↔ r.poolExhausted := by
  have own := giveUpLowest_none (r.slot k).suspects
  obtain ⟨d1, d2⟩ := r.donor_spec k
  unfold Rack.findEntry Rack.poolExhausted
  by_cases free : 0 < r.freeEntries
  · rw [if_pos free]
    constructor
    · simp
    · rintro ⟨h, _⟩; omega
  · rw [if_neg free]
    have full : r.freeEntries = 0 := by omega
    cases hl : giveUpLowest (r.slot k).suspects with
    | some l =>
      have : ¬ ∀ x ∈ (r.slot k).suspects, x.reclaimable = false := fun a => by rw [own.mpr a] at hl; simp at hl
      simp only [reduceCtorEq, false_iff, not_and]
      exact fun _ a => this (a k)
    | none =>
      have mine := own.mp hl
      cases hd : r.donor k with
      | none =>
        simp only [true_iff]
        refine ⟨full, fun j x hx => ?_⟩
        by_cases h : j = k
        · subst h; exact mine x hx
        · exact d1 hd j h x hx
      | some j =>
        obtain ⟨_, ⟨x, hx, hr⟩, _⟩ := d2 j hd
        dsimp only
        cases hj : giveUpLowest (r.slot j).suspects with
        | none => have := (giveUpLowest_none _).mp hj x hx; simp [hr] at this
        | some l =>
          simp only [reduceCtorEq, false_iff, not_and]
          intro _ a
          have := a j x hx
          simp [hr] at this

/-- A result that ends an aborted exchange gives no evidence (R185). -/
@[simp] theorem Rack.judgeResult_aborted (st : Store) (r : Rack) (k : SlotIx) (c : CaseRecord) (x : Exchange)
    (retries : Nat) : r.judgeResult st k c (x.record retries .aborted) = r := rfl

/-! ## What hands no evidence (R39) -/

@[refl] theorem Rack.samePool_refl (r : Rack) : Rack.samePool r r := fun _ => rfl

@[trans] theorem Rack.samePool_trans {r₁ r₂ r₃ : Rack} (h : Rack.samePool r₁ r₂) (g : Rack.samePool r₂ r₃) :
    Rack.samePool r₁ r₃ := fun j => (g j).trans (h j)

/-- A change of no record hands no evidence. -/
theorem Rack.samePool_of_records {r r' : Rack} (h : ∀ j, (r'.slot j).record = (r.slot j).record) :
    Rack.samePool r r' := fun j => by rw [h j]

/-- A change of one record outside its suspect side hands no evidence. -/
theorem Rack.samePool_of_slot {r r' : Rack} (k : SlotIx) (same : ∀ j, j ≠ k → (r'.slot j).record = (r.slot j).record)
    (f : CaseRecord → CaseRecord) (own : (r'.slot k).record = (r.slot k).record.map f)
    (keep : ∀ c, (f c).suspects = c.suspects ∧ (f c).nextSerial = c.nextSerial ∧ (f c).unplaced = c.unplaced ∧
      (f c).poolFull = c.poolFull) : Rack.samePool r r' := by
  intro j
  by_cases h : j = k
  · subst h
    rw [own]
    cases (r.slot j).record with
    | none => rfl
    | some c => simp [keep c]
  · rw [same j h]

theorem Rack.samePool_enter (r : Rack) (k : SlotIx) (cs : CaseState) : Rack.samePool r (r.enter k cs) :=
  Rack.samePool_of_slot k (fun j h => by simp [h]) (fun c => { c with state := cs }) (by simp) (fun _ => by simp)

theorem Rack.samePool_dropRun (r : Rack) (k : SlotIx) : Rack.samePool r (r.dropRun k) :=
  Rack.samePool_of_records fun j => by by_cases h : j = k <;> [subst h; skip] <;> simp [*]

theorem Rack.samePool_setUnits (r : Rack) (k : SlotIx) (n : Nat) : Rack.samePool r (r.setUnits k n) :=
  Rack.samePool_of_records fun j => by by_cases h : j = k <;> [subst h; skip] <;> simp [*]

theorem Rack.samePool_issue (st : Store) (r : Rack) (k : SlotIx) : Rack.samePool r (Rack.issue st r k) :=
  Rack.samePool_of_records fun j => by
    by_cases h : j = k
    · subst h; obtain ⟨l, run, e⟩ := Rack.slot_issue st r j; rw [e]
    · simp [h]

theorem Rack.samePool_takeGrant (st : Store) (r : Rack) (k : SlotIx) : Rack.samePool r (Rack.takeGrant st r k) := by
  unfold Rack.takeGrant
  split
  · split
    · refine Rack.samePool_trans (Rack.samePool_enter r k .running) (Rack.samePool_trans ?_ (Rack.samePool_issue st _ k))
      exact Rack.samePool_of_records fun j => by by_cases h : j = k <;> [subst h; skip] <;> simp [*]
    · refine Rack.samePool_trans (Rack.samePool_enter r k .powering) (Rack.samePool_of_records fun j => ?_)
      unfold Rack.enterPowering Rack.railOn
      cases ((r.enter k .powering).slot k).record <;> by_cases h : j = k <;> [subst h; skip; subst h; skip] <;> simp [*]
  · exact Rack.samePool_refl r

theorem Rack.samePool_grantPass (st : Store) (r : Rack) : Rack.samePool r (r.grantPass st) := by
  suffices h : ∀ n r, Rack.samePool r (Rack.grantPassUpTo st n r) from h _ r
  intro n
  induction n with
  | zero => exact Rack.samePool_refl
  | succ n ih =>
    intro r
    unfold Rack.grantPassUpTo
    split
    · exact Rack.samePool_refl r
    · next e rest _ =>
      split
      · refine Rack.samePool_trans ?_ (Rack.samePool_trans (Rack.samePool_takeGrant st _ e.slot) (ih _))
        exact Rack.samePool_setUnits ({ r with queue := rest } : Rack) e.slot e.need
      · exact Rack.samePool_refl r

theorem Rack.samePool_endRun (st : Store) (r : Rack) (k : SlotIx) (cs : CaseState) :
    Rack.samePool r (r.endRun st k cs) :=
  Rack.samePool_trans (Rack.samePool_dropRun r k) <|
    Rack.samePool_trans (Rack.samePool_setUnits (r.dropRun k) k 0) <|
      Rack.samePool_trans (Rack.samePool_enter ((r.dropRun k).giveBack k) k cs) (Rack.samePool_grantPass st _)

theorem Rack.samePool_proceed_still (st : Store) (r : Rack) (k : SlotIx)
    (h : (r.slot k).stay.draining = false ∨ (r.slot k).seq.mode ≠ .program ∨ (r.slot k).atBoundary = false) :
    Rack.samePool r (r.proceed st k) := by
  unfold Rack.proceed
  rw [Rack.takeOrHoldAdvance_still st r k h]
  refine Rack.samePool_trans (Rack.samePool_of_records fun j => ?_) <|
    Rack.samePool_trans (Rack.samePool_issue st r.grantPending k) (Rack.samePool_of_records fun j => by simp)
  rcases Rack.slot_grantPending r j with g | ⟨_, g⟩ <;> rw [g]

/-- A fault of a run hands no evidence beside its item. -/
theorem Rack.samePool_faultCase (st : Store) (r : Rack) (k : SlotIx) (cause : FaultCause) :
    Rack.samePool r (r.faultCase st k cause) := by
  have hm : ((r.endRun st k (.faulted cause)).slot k).seq.mode ≠ .program := by
    rw [(Rack.endRun_spec st r k (.faulted cause)).1]; simp
  exact Rack.samePool_trans (Rack.samePool_endRun st r k _) (Rack.samePool_proceed_still st _ k (.inr (.inl hm)))

/-! ## A pending HOLD at a boundary (R206) -/
/-- At a boundary a pending HOLD is given. -/
theorem Rack.grantPending_at (r : Rack) {k : SlotIx} (p : r.isPending k = true) (h : (r.slot k).atBoundary = true) :
    r.grantPending = r.benchGrant k := by
  unfold Rack.isPending at p
  unfold Rack.grantPending
  cases hb : r.bench.state with
  | idle => simp [hb] at p
  | granted i => simp [hb] at p
  | pending i =>
    have : i = k := by simpa [hb] using p
    subst this
    simp [h]

/-- Away from a boundary a pending HOLD waits. -/
theorem Rack.grantPending_inRun (r : Rack) (h : ∀ j, r.isPending j = true → (r.slot j).atBoundary = false) :
    r.grantPending = r := by
  unfold Rack.grantPending
  cases hb : r.bench.state with
  | idle => rfl
  | granted i => rfl
  | pending i =>
    have := h i (by simp [Rack.isPending, hb])
    simp [this]

/-- A run that ends gives its slot's pending HOLD (R206). -/
theorem Rack.endRun_proceed_pending (st : Store) (r : Rack) (k : SlotIx) (cs : CaseState) (p : r.isPending k = true) :
    ((r.endRun st k cs).proceed st k).bench.state = .granted k ∧
      (((r.endRun st k cs).proceed st k).slot k).line.state = .passed := by
  obtain ⟨e1, e2, e3, e4, e5, e6, e7, e8, e9⟩ := Rack.endRun_spec st r k cs
  have hm : ((r.endRun st k cs).slot k).seq.mode = .off := by rw [e1]; simp
  have hp : (r.endRun st k cs).isPending k = true := by simpa only [Rack.isPending, e5] using p
  have hb : ((r.endRun st k cs).slot k).atBoundary = true := by rw [e1]; simp [Slot.atBoundary]
  unfold Rack.proceed
  rw [Rack.takeOrHoldAdvance_still st _ k (.inr (.inl (by simp [hm]))), Rack.grantPending_at _ hp hb,
    Rack.issue_off st _ k (by simp [hm])]
  exact ⟨by rw [(Rack.rest_checkQuiesced _).2.2.2.1]; simp [Rack.benchGrant], by simp⟩

end Sys2Proof.Machine
end

