-- ==== Sys2Proof/Laws/Port.lean ====
section
/-! SUPPORT. What the port does with a request, once: a state that takes requests hands the arguments to the owner and keeps
its answer; what the arguments of a request name; what a CLK edge does; and numbers and strings in bytes. -/

namespace Sys2Proof.Machine

/-- The state in which the owner takes a request: the frame is complete. -/
def State.completed (s : State) : State := { s with port := s.port.complete }

/-- The state after the owner's reply. -/
def State.after (reply : Reply) : State := { reply.1 with port := { reply.1.port with answer := some reply.2 } }

@[simp] theorem State.rack_completed (s : State) : s.completed.rack = s.rack := rfl
@[simp] theorem State.store_completed (s : State) : s.completed.store = s.store := rfl
@[simp] theorem State.caseCounter_completed (s : State) : s.completed.caseCounter = s.caseCounter := rfl
@[simp] theorem State.freeCount_completed (s : State) : s.completed.freeCount = s.freeCount := rfl
@[simp] theorem State.rackState_completed (s : State) : s.completed.port.rackState = s.port.rackState := rfl
@[simp] theorem State.tick_completed (s : State) : s.completed.port.tick = s.port.tick := rfl

theorem State.settled_of_quiet {s : State} (h : s.quiet) : s.settled = s := by
  have h' : s.rack.dueList s.store = [] := h
  simp [State.settled, Rack.settle, h']

theorem State.onRack_of_quiet {s : State} (h : s.quiet) (event : Store → Rack → Rack) :
    s.onRack event = s.withRack (event s.store s.rack) := by
  simp only [State.onRack, State.settled_of_quiet h]; rfl

/-- A frame that completes with no answer pending is acted on. -/
theorem State.onFrame_listening {s : State} (h : s.listening) (act : State → Reply) :
    s.settled.onFrame act = State.after (act s.completed) := by
  obtain ⟨hq, ha, hn⟩ := h
  have hn' : s.port.complete.answer = none := hn
  simp only [State.settled_of_quiet hq, State.onFrame, ha, if_true, hn']
  rfl

/-- A request with good arguments reaches its owner in a SET rack. -/
theorem State.request_taken {α : Type} {s : State} (h : s.takesRequests) (g : Gate) (a : α)
    (owner : α → State → Reply) : s.request g (some a) owner = State.after (owner a s.completed) := by
  obtain ⟨hl, hs⟩ := h
  simp only [State.request, State.onFrame_listening hl, State.rackState_completed, hs]
  cases g <;> rfl

/-- A body that does not fit is BAD-ARG. -/
theorem State.request_misfit {α : Type} {s : State} (h : s.takesRequests) (g : Gate)
    (owner : α → State → Reply) : s.request g none owner = s.answered .badArg [0, 0, 0] := by
  obtain ⟨hl, hs⟩ := h
  simp only [State.request, State.onFrame_listening hl, State.rackState_completed, hs]
  cases g <;> rfl

/-- A request that the port's own check refuses. -/
theorem State.request_gated {α : Type} {s : State} (h : s.listening) {g : Gate} {status : Status}
    (hg : g.refusal s.port.rackState = some status) (args : Body α) (owner : α → State → Reply) :
    s.request g args owner = s.answered status [] := by
  simp only [State.request, State.onFrame_listening h, State.rackState_completed, hg]
  rfl

@[simp] theorem State.after_refuse (s : State) (status : Status) :
    State.after (refuse s.completed status) = s.answered status [] := rfl
@[simp] theorem State.after_badArg (s : State) : State.after (badArg s.completed) = s.answered .badArg [0, 0, 0] := rfl
@[simp] theorem State.after_done (s : State) (body : List Byte) :
    State.after (done s.completed body) = s.answered .done body := rfl
@[simp] theorem State.after_doneCase (s : State) (k : SlotIx) :
    State.after (doneCase s.completed k) = s.answered .done (casePrefix s.rack k) := rfl
@[simp] theorem State.after_stale (s : State) (k : SlotIx) :
    State.after (stale s.completed k) = s.answered .stale (byte (slotNumber k) :: halfBytes (s.rack.slot k).stamp) := rfl
@[simp] theorem State.after_doneCase_withRack (s : State) (r : Rack) (k : SlotIx) :
    State.after (doneCase (s.completed.withRack r) k) = (s.withRack r).answered .done (casePrefix r k) := rfl
@[simp] theorem State.after_done_withRack (s : State) (r : Rack) (body : List Byte) :
    State.after (done (s.completed.withRack r) body) = (s.withRack r).answered .done body := rfl
@[simp] theorem State.after_done_withStore (s : State) (st : Store) (body : List Byte) :
    State.after (done (s.completed.withStore st) body) = (s.withStore st).answered .done body := rfl

/-- A slot argument names the slot of its number (R1). -/
theorem Rack.slotArg_eq {r : Rack} {b : Byte} {k : SlotIx} (h : b.toNat = k.val + 1) (u : r.inUse k = true) :
    r.slotArg b = some k := by
  have hk := k.isLt
  have h1 : 1 ≤ b.toNat ∧ b.toNat ≤ 16 := by omega
  have h2 : (⟨b.toNat - 1, by omega⟩ : SlotIx) = k := Fin.ext (by simp; omega)
  simp [Rack.slotArg, h1, h2, u]

/-- A model argument names the model slot of its number. -/
theorem modelArg_eq {b : Byte} {m : ModelIx} (h : b.toNat = m.val + 1) : modelArg b = some m := by
  have hk := m.isLt
  have h1 : 1 ≤ b.toNat ∧ b.toNat ≤ 8 := by omega
  have h2 : (⟨b.toNat - 1, by omega⟩ : ModelIx) = m := Fin.ext (by simp; omega)
  simp [modelArg, h1, h2]

/-- The checks that every request on one slot begins with, for a slot with an open case. -/
theorem State.onCase_open {s : State} {b : Byte} {k : SlotIx} {c : CaseRecord} (h : b.toNat = k.val + 1)
    (u : s.rack.inUse k = true) (hc : (s.rack.slot k).record = some c) (act : SlotIx → CaseRecord → Reply) :
    s.onCase b act = act k c := by
  simp [State.onCase, Rack.slotArg_eq h u, hc]

/-! ## The clock of a SEL period (R216 to R222) -/

/-- Outside a SEL period CLK is ignored. -/
theorem State.clock_none {s : State} (h : s.port.period = none) (x : LinkLevels) : s.clock x = s := by
  simp [State.clock, h]

theorem State.clocks_none {s : State} (h : s.port.period = none) (link : List LinkLevels) :
    link.foldl State.clock s = s := by
  induction link with
  | nil => rfl
  | cons x l ih => rw [List.foldl_cons, State.clock_none h, ih]

/-- Levels with no edge of CLK change nothing. -/
theorem State.clock_same {s : State} {d : SelPeriod} (h : s.port.period = some d) {x : LinkLevels} (e : x.clk = d.clk) :
    s.clock x = s := by
  simp only [State.clock, h, e]
  cases d.clk <;> rfl

/-- At a falling edge DOUT takes its next bit, and nothing else changes. -/
theorem State.clock_fall {s : State} {d : SelPeriod} (h : s.port.period = some d) (e : d.clk = true) (din : Bool) :
    s.clock ⟨false, din⟩ = s.withPeriod { d with clk := false, doutBit := d.nextBit } := by
  simp only [State.clock, h, e]
  rfl

/-- A rising edge is one. -/
theorem State.clock_rise {s : State} {d : SelPeriod} (h : s.port.period = some d) (e : d.clk = false) (din : Bool) :
    s.clock ⟨true, din⟩ = s.risingEdge d din := by
  simp only [State.clock, h, e]

/-- A rising edge that does not complete a byte joins the bits. -/
theorem State.risingEdge_partial (s : State) {d : SelPeriod} (n : d.bits.length < 7) (din : Bool) :
    s.risingEdge d din = s.withPeriod { d with clk := true, bits := d.bits ++ [din] } := by
  unfold State.risingEdge
  exact if_pos (by simp; omega)

/-- The eighth rising edge completes a byte: DOUT shifts it out and DIN receives it. -/
theorem State.risingEdge_whole (s : State) {d : SelPeriod} (n : d.bits.length = 7) (din : Bool) :
    s.risingEdge d din = State.receive
      { s with port := Port.shiftOut { s.port with period := some { d with clk := true, bits := [] } } }
      (byteOfBits (d.bits ++ [din])) := by
  unfold State.risingEdge
  exact if_neg (by simp [n])

/-- Every command leaves a state, so the command of a frame does. -/
theorem frameMeaning_next (c : Instr) (s : State) : frameMeaning c s = .next (nextOr s (frameMeaning c s)) := by
  cases c <;> rfl

/-- A frame's command is run as its row is. -/
theorem exec_of_frame {c : Instr} (h : (gateOf c).isSome = true ∨ ∃ f, c = .badFrame f) (s : State) :
    exec c s = .next (nextOr s (frameMeaning c s)) := by
  rcases h with h | ⟨f, rfl⟩
  · cases c <;> first | rfl | simp [gateOf] at h
  · rfl

theorem gateOf_parseNote (body : List Byte) : (gateOf (parseNote body)).isSome = true := by
  unfold parseNote
  dsimp only
  repeat' split
  all_goals rfl

theorem gateOf_requestOf (code : Byte) (body : List Byte) : (gateOf (requestOf code body)).isSome = true := by
  unfold requestOf
  split
  case h_11 => exact gateOf_parseNote body
  all_goals rfl

/-- A frame makes a request, an unknown request or a bad frame (R218, R219). -/
theorem frameCommand_is_frame {bytes : List Byte} {c : Instr} (h : frameCommand bytes = some c) :
    (gateOf c).isSome = true ∨ ∃ f, c = .badFrame f := by
  unfold frameCommand at h
  split at h
  · simp at h
  · simp at h
  · simp only [Option.some.injEq] at h; exact .inr ⟨_, h.symm⟩
  · simp only [Option.some.injEq] at h; exact .inl (h ▸ gateOf_requestOf _ _)

/-! ## Numbers and strings in bytes (R233) -/

/-- A byte joins a number at its low end. -/
theorem toNat_append_byte {w : Nat} (x : BitVec w) (b : Byte) : (x ++ b).toNat = x.toNat * 256 + b.toNat := by
  rw [BitVec.toNat_append, ← Nat.shiftLeft_add_eq_or_of_lt b.isLt, Nat.shiftLeft_eq]

@[simp] theorem toNat_byte (n : Nat) : (byte n).toNat = n % 256 := by simp [byte]

theorem half_of_bytes (h : Half) : byte (h.toNat / 256) ++ byte h.toNat = h := by
  apply BitVec.eq_of_toNat_eq
  have := h.isLt
  rw [toNat_append_byte, toNat_byte, toNat_byte]
  omega

theorem addr_of_bytes (a : Addr) : byte (a.toNat / 65536) ++ byte (a.toNat / 256) ++ byte a.toNat = a := by
  apply BitVec.eq_of_toNat_eq
  have := a.isLt
  rw [toNat_append_byte, toNat_append_byte, toNat_byte, toNat_byte, toNat_byte]
  omega

/-- A two-byte argument is read as it is sent. -/
theorem takeHalf_bytes (h : Half) (rest : List Byte) : takeHalf (bytes 2 h.toNat ++ rest) = some (h, rest) := by
  simp [bytes, takeHalf, half_of_bytes]

/-- A three-byte argument is read as it is sent. -/
theorem takeAddr_bytes (a : Addr) (rest : List Byte) : takeAddr (bytes 3 a.toNat ++ rest) = some (a, rest) := by
  simp [bytes, takeAddr, addr_of_bytes]

/-- A string is read as it is sent. -/
theorem takeString_bytes {s : List Byte} (h : s.length ≤ 255) (rest : List Byte) :
    takeString (byte s.length :: (s ++ rest)) = some (s, rest) := by
  have : (byte s.length).toNat = s.length := by simp; omega
  simp [takeString, this]

/-- The three bytes of an address on the sense line are those of its answers. -/
theorem addrBytes_eq (a : Addr) : addrBytes a = bytes 3 a.toNat := by
  simp only [addrBytes, bytes, List.cons.injEq, and_true]
  refine ⟨?_, ?_, ?_⟩ <;> apply BitVec.eq_of_toNat_eq <;> simp [Nat.shiftRight_eq_div_pow]

end Sys2Proof.Machine
end

