-- ==== Sys2Proof/Tests/Slice0.lean ====
section
/-! SUPPORT. Checks of this part on small states: ill-formed commands, words of the spec's own examples, and for every statement
with premises a state and operands that meet them. -/

namespace Sys2Proof.Tests

open Sys2Proof Sys2Proof.Machine

set_option Elab.async false

/-! ## Small states -/

/-- Retries 1, confirm threshold 2 and spread 1, clear count 1, boot allowance 3, strike limit 1, rest 2, allowances 2, one
cycle; path, rail and hang components 1, 2 and 3. -/
def header : Header := ⟨[0x4D], .r57600, 1, 2, 1, 1, 3, 1, 2, 2, 2, 1, 1, 2, 3⟩

def parts : List Component :=
  [⟨[0x4A], .path, none, 0⟩, ⟨[0x51], .power, none, 0⟩, ⟨[0x55], .processor, none, 0⟩,
    ⟨[0x56], .memory, some (0x100000, 0x1000FF), 1⟩]

def stages : List Stage := [⟨5, .nominal, 80, 45, 2, 4, 1, 3⟩, ⟨4, .low, 80, 45, 0, 6, 1, 0⟩]

def poke : Step := ⟨2, 0x100000, 2, 1, 0, 0, 0⟩

def peek : Step := ⟨1, 0x100000, 2, 1, 0, 0xFF, 1⟩

def model : Model := ⟨header, parts, stages, #v[[poke, peek], [], [], []]⟩

/-- The model in slot 1, VALID; the other slots BLANK. -/
def store : Store :=
  ⟨(Vector.replicate 8 ModelSlot.erased).set 0 ⟨.valid, .complete, false, some model⟩, none, none⟩

def storeIn (state : ModelSlotState) : Store :=
  ⟨(Vector.replicate 8 ModelSlot.erased).set 0 ⟨state, .complete, false, some model⟩, none, none⟩

def storeWriting (w : StoreWrite) : Store := { store with write := some w }

def openPeriod : SelPeriod := ⟨[], false, 0, false, some [], [], false, false⟩

/-- A SET rack with budget 12, all slots EMPTY, and a frame being assembled. -/
def base : State :=
  { State.reset with
    rack := { Rack.reset true with budget := some 12 }
    store := store
    port := ⟨.set, some openPeriod, none, false, true, some .s1⟩ }

def onPort (f : Port → Port) (s : State) : State := { s with port := f s.port }

def onStore (st : Store) (s : State) : State := { s with store := st }

def onLines (b : Bench) (s : State) : State := { s with rack := { s.rack with bench := b } }

/-- BHOLD reads high, and a fifth low sample in a row would make it low. -/
def onBench (b : BenchState) : State → State := onLines ⟨b, true, 4, false, 0⟩

def queueing (q : List QueueEntry) (s : State) : State := { s with rack := { s.rack with queue := q } }

def held (q : QuiesceState) (s : State) : State := { s with rack := { s.rack with quiesce := q } }

/-- Slot 1 holds `sl`. -/
def withSlot (sl : Slot) : State := { base with rack := base.rack.setSlot 0 sl }

/-- Slots 1 and 2 hold `x` and `y`. -/
def withSlots (x y : Slot) : State := { base with rack := (base.rack.setSlot 0 x).setSlot 1 y }

/-- Case 1 with tag "T" and model 1, in a state. -/
def record (cs : CaseState) : CaseRecord := { CaseRecord.opened store 1 0 [0x54] .normal with state := cs }

/-- A slot with this record under a CLOSED latch. -/
def slotOf (c : CaseRecord) : Slot := { Slot.reset with record := some c, latchClosed := true }

def suspect (component : Nat) (state : SuspectState) : Suspect :=
  ⟨component, state, component, 1, 0, 0, 0, 1, some ⟨1, 1⟩, some ⟨1, 1⟩, 1, false⟩

def lineIn (state : LineState) (x : Option Exchange) : Line := ⟨state, x, 0x100000, false, .passed⟩

def seqIn (mode : SeqMode) (runStart : Option Nat) : Sequencer := ⟨mode, 1, 0, runStart, none, false, false⟩

/-- A slot in RUNNING with its units, a GOOD rail and PROGRAM mode at a boundary. -/
def running (c : CaseRecord) : Slot :=
  { slotOf c with units := 4, rail := ⟨.good, .nominal, 0, 0, none⟩, seq := seqIn .program none, watch := ⟨some 0, 3, none, none⟩ }

def pokeOut : Exchange := ⟨.poke .atForm .atForm 0x100000 0, 1, 1, 1, []⟩

def hailOut (returned : List Byte) : Exchange := ⟨.hail, 0, 1, 1, returned⟩

/-- The state a command leaves, the same state where it answers none. -/
def after (c : Instr) (s : State) : State :=
  match exec c s with
  | .next t => t
  | .fault _ => s
  | .refused _ => s

/-- What holds of every open case holds slot by slot. -/
theorem of_records {P : SlotIx → CaseRecord → Prop} [∀ k c, Decidable (P k c)] (r : Rack)
    (h : ∀ k, (r.slot k).record.all (fun c => decide (P k c)) = true) :
    ∀ k c, (r.slot k).record = some c → P k c := by
  intro k c hc
  have := h k
  rw [hc] at this
  simpa using this

/-! ## Commands that no frame and no event carries -/

theorem test_open_tag_too_long_is_ill_formed :
    (Instr.caseOpen (some ⟨1, 1, List.replicate 256 0x41, 0⟩)).wf = false := by decide +kernel

theorem test_open_body_too_long_is_ill_formed :
    (Instr.caseOpen (some ⟨1, 1, List.replicate 247 0x41, 0⟩)).wf = false ∧
    (Instr.caseOpen (some ⟨1, 1, List.replicate 246 0x41, 0⟩)).wf = true := by decide +kernel

theorem test_find_body_too_long_is_ill_formed :
    (Instr.caseFind (some ⟨List.replicate 250 0x41⟩)).wf = false ∧
    (Instr.caseFind (some ⟨List.replicate 249 0x41⟩)).wf = true := by decide +kernel

theorem test_amend_body_too_long_is_ill_formed :
    (Instr.caseAmend (some ⟨1, 0, some (List.replicate 243 0x41), some 0, false⟩)).wf = false ∧
    (Instr.caseAmend (some ⟨1, 0, some (List.replicate 256 0x41), none, false⟩)).wf = false ∧
    (Instr.caseAmend (some ⟨1, 0, some (List.replicate 242 0x41), some 0, false⟩)).wf = true := by decide +kernel

theorem test_begin_name_too_long_is_ill_formed :
    (Instr.modelBegin (some ⟨List.replicate 234 0x41, 0, 0, 1, 1, 0, 1, 0, 1, 1, 1, 1, 1, 1, 1⟩)).wf = false ∧
    (Instr.modelBegin (some ⟨List.replicate 233 0x41, 0, 0, 1, 1, 0, 1, 0, 1, 1, 1, 1, 1, 1, 1⟩)).wf = true := by decide +kernel

theorem test_component_designator_too_long_is_ill_formed :
    (Instr.modelAddComponent (some ⟨List.replicate 240 0x41, 0, some (0, 1), some 0⟩)).wf = false ∧
    (Instr.modelAddComponent (some ⟨List.replicate 239 0x41, 0, some (0, 1), some 0⟩)).wf = true := by decide +kernel

theorem test_known_and_idle_codes_are_no_unknown_requests :
    (Instr.unknownRequest 0).wf = false ∧ (Instr.unknownRequest 0x10).wf = false ∧
    (Instr.unknownRequest 0x63).wf = false ∧ (Instr.unknownRequest 0x64).wf = true := by decide +kernel

theorem test_a_slot_is_checked_once : (Instr.startupCheckEnd [0, 0]).wf = false := by decide +kernel

/-! ## Words of the spec -/

/-- The worked NOTICES frame, and the checks of its first two bytes. -/
theorem test_notices_frame : frameCommand [0x63, 0x00, 0xCA] = some (.notices (some ⟨⟩)) ∧
    crc8 [0x63] = 0x2E ∧ crc8 [0x63, 0x00] = 0xCA := by decide +kernel

/-- A NONE frame with a notice waiting. -/
theorem test_none_frame : frameBytes .none 2 [] = [0x00, 0x02, 0x00, 0x00, 0xD6] := by decide +kernel

theorem test_idle_and_incomplete_frames_make_no_command :
    frameCommand [0x00, 0x63, 0x00, 0xCA] = none ∧ frameCommand [0x63, 0x00] = none ∧ frameCommand [] = none := by decide +kernel

theorem test_faulty_frames : frameCommand [0x63, 0x00, 0xCB] = some (.badFrame .crc) ∧
    frameCommand [0x63, 0xFB] = some (.badFrame .length) := by decide +kernel

theorem test_codes_name_their_requests :
    requestOf 0x16 [0x01, 0x00, 0x29] = .caseLook (some (.byNumber 41)) ∧
    requestOf 0x21 [5, 0, 10, 7, 1] = .suspectNoteConfirm (some ⟨5, 10, 7⟩) ∧
    requestOf 0x21 [5, 0, 10, 7, 3] = .suspectNoteFail none ∧
    requestOf 0x23 [5, 0, 10, 1, 0x10, 0, 0, 0x13, 0xFF, 0xFF, 0] =
      .rework (some ⟨5, 10, some (0x100000, 0x13FFFF), none⟩) ∧
    requestOf 0x60 [2, 12, 0] = .rackSetup (some ⟨2, 12, 0⟩) ∧ requestOf 0x11 [] = .caseStart none := by decide +kernel

/-- A frame of CASE START with its check byte and with a wrong one, and a code of no request. -/
theorem test_witness_frames : crc8 [0x11, 0x01, 0x05] = 0xC7 ∧
    frameCommand [0x11, 0x01, 0x05, 0xC7] = some (.caseStart (some ⟨5⟩)) ∧
    frameCommand [0x11, 0x01, 0x05, 0xC6] = some (.badFrame .crc) ∧ isRequestCode 0x64 = false ∧
    isRequestCode 0x63 = true ∧ ([] : List Byte).length ≠ 1 := by decide +kernel

theorem test_no_word_spells_a_command : decodeTableWord 16 0x6300 = none ∧ base.withFetchWord 16 0x6300 = base :=
  ⟨rfl, rfl⟩

/-- R178's own example: start 2A00FEh, ADDR-INVERT. -/
theorem test_pattern_example :
    (List.range 4).map (Step.patternByte ⟨2, 0x2A00FE, 4, 2, 0, 0, 1⟩) = [0x01, 0x00, 0xFF, 0xFE] := by decide +kernel

/-- R3's own example: the counter holds 65535, and open cases hold 65535 and 1. -/
theorem test_case_number_example :
    (withSlots (slotOf { record .ready with number := 65535 }) (slotOf (record .ready))).rack.nextNumber 65535 = 2 := by
  decide +kernel

/-! ## The step and the invariants -/

theorem test_a_step_takes_the_front :
    (base.withPending [.rackTick, .selRise]).pending = .rackTick :: [.selRise] ∧ State.reset.pending = [] := by decide +kernel

/-- A state in which every invariant holds, with a case in its run, one queued, a suspect, an exchange and an answer. -/
def busy : State :=
  { (withSlots
      { running { record .running with suspects := [suspect 4 .opened] } with line := lineIn .send (some pokeOut) }
      { slotOf { record .waiting with number := 2 } with line := lineIn .passed none }).withPending [.selRise] with
    rack := { (withSlots
        { running { record .running with suspects := [suspect 4 .opened] } with line := lineIn .send (some pokeOut) }
        { slotOf { record .waiting with number := 2 } with line := lineIn .passed none }).rack with
      queue := [⟨1, 2, 15, .normal, false⟩], bench := ⟨.granted 1, true, 0, false, 0⟩ }
    port := ⟨.set, some { openPeriod with collided := true }, some ⟨.done, []⟩, true, true, some .s1⟩ }

theorem test_busy_takes_a_step : step busy = .next (after .selRise (busy.withPending [])) := rfl

theorem test_busy_is_safe_at_the_port : busy.port.safe := by
  refine ⟨fun _ => rfl, fun d h => ?_⟩
  obtain rfl := Option.some.inj h
  refine ⟨fun _ => rfl, by decide, by decide, by decide +kernel, fun received h => ?_⟩
  obtain rfl := Option.some.inj h
  decide +kernel

theorem test_busy_is_safe_in_the_store : busy.storeSafe := by
  unfold State.storeSafe
  refine ⟨by decide +kernel, by decide +kernel, fun m h => nomatch h⟩

theorem test_busy_is_safe_in_its_rails : busy.rack.railSafe := by
  unfold Rack.railSafe Slot.railSafe; decide +kernel

theorem test_busy_is_safe_in_its_budget : busy.rack.budgetSafe := by
  unfold Rack.budgetSafe; decide +kernel

theorem test_busy_is_safe_in_its_pool : busy.rack.poolSafe := by
  unfold Rack.poolSafe; decide +kernel

theorem test_busy_is_safe_in_its_lines : busy.rack.lineSafe := by
  unfold Rack.lineSafe; decide +kernel

/-- A rack of eight slots meets the premise of the unused slots, with its own step. -/
theorem test_narrow_is_safe_in_its_width : (Rack.reset false).wide = false ∧ (Rack.reset false).widthSafe ∧
    step ({ State.reset with rack := Rack.reset false }.withPending [.rackTick]) =
      .next (after .rackTick { State.reset with rack := Rack.reset false }) := by
  refine ⟨rfl, ?_, rfl⟩
  unfold Rack.widthSafe; decide +kernel

/-! ## The request port -/

theorem test_witness_frames_without_a_request : base.listening ∧ base.takesRequests := by decide +kernel

theorem test_witness_a_frame_meets_an_answer :
    let s := onPort (fun p => { p with answer := some ⟨.done, []⟩ }) base
    s.quiet ∧ s.port.assembling = true ∧ s.port.answer.isSome = true ∧
      (gateOf (.notices none)).isSome = true ∧ (gateOf (.caseStart none)).isSome = true := by decide +kernel

theorem test_witness_starting_and_not_set_up :
    let starting := onPort (fun p => { p with rackState := .starting }) base
    let unset := onPort (fun p => { p with rackState := .unset }) base
    starting.listening ∧ gateOf (.notices none) = some .unsetOrSet ∧ starting.port.rackState = .starting ∧
      unset.listening ∧ gateOf (.caseStart none) = some .setOnly ∧ unset.port.rackState = .unset := by decide +kernel

theorem test_witness_misfit_body : base.takesRequests ∧ misfitBody (.caseStart none) = true ∧
    misfitBody (.rackStatus none) = true := by decide +kernel

theorem test_witness_sel_fall : State.reset.quiet ∧ State.reset.port.period = none ∧ State.reset.port.answer = none ∧
    (onPort (fun p => { p with answer := some ⟨.done, []⟩ }) State.reset).port.answer = some ⟨.done, []⟩ ∧
    (onPort (fun p => { p with answer := some ⟨.done, []⟩ }) State.reset).quiet := by decide +kernel

/-- The bits of a byte, the most significant first. -/
def bitsOf (b : Byte) : List Bool := (List.range 8).map b.getMsbD

/-- The levels of CLK and DIN that clock in bits, a rising and a falling edge for each. -/
def clockOf (bits : List Bool) : List LinkLevels := bits.flatMap fun b => [⟨true, b⟩, ⟨false, b⟩]

/-- CLK low and high, a byte under way, a whole byte, no SEL period, and a state after one edge. -/
theorem test_witness_clock_edges :
    base.quiet ∧ base.port.period = some openPeriod ∧ openPeriod.clk = false ∧ openPeriod.bits.length < 7 ∧
      byteOfBits (bitsOf 0xCA) = 0xCA ∧
      State.reset.quiet ∧ State.reset.port.period = none ∧
      (onPort (fun p => { p with period := some { openPeriod with clk := true } }) base).quiet ∧
      (after (.answerRead [⟨true, true⟩]) base).quiet := by decide +kernel

theorem test_an_edge_leaves_a_state :
    exec (.answerRead [⟨true, true⟩]) base = .next (after (.answerRead [⟨true, true⟩]) base) := rfl

/-- The eighth edge of the last byte of an answer, without and with a collision, and of a byte before it. -/
theorem test_witness_answer_read :
    let d : SelPeriod := ⟨frameBytes .done 0 [], true, 4, false, none, List.replicate 7 false, false, false⟩
    let s (e : SelPeriod) := onPort (fun p => { p with answer := some ⟨.done, []⟩, period := some e }) base
    (s d).quiet ∧ (s d).port.period = some d ∧ d.bits.length = 7 ∧ d.clk = false ∧ d.carriesAnswer = true ∧
      d.readPosition + 1 = d.dout.length ∧ d.collided = false ∧ (s { d with collided := true }).quiet ∧
      (s { d with readPosition := 3 }).quiet ∧ 3 + 1 ≠ d.dout.length := by decide +kernel

/-- The bytes after which a DIN byte completes a frame, is an idle code, and joins the frame in. -/
theorem test_witness_frame_in :
    frameCommand ([0x63, 0x00] ++ [byteOfBits ([] ++ bitsOf 0xCA)]) = some (.notices (some ⟨⟩)) ∧
      judgeFrame ([] ++ [byteOfBits ([] ++ bitsOf 0)]) = .idle ∧
      judgeFrame ([0x63] ++ [byteOfBits ([] ++ bitsOf 0)]) = .incomplete := by decide +kernel

/-- DOUT carries bytes with the most significant bit first, and 00h after the last byte; it holds a bit at the rising edge and
changes at the falling one. -/
theorem test_dout_bits :
    let d : SelPeriod := ⟨[0xA0], false, 0, false, none, [], false, true⟩
    let s := onPort (fun p => { p with period := some d }) base
    d.nextBit = true ∧ { d with bits := [true] }.nextBit = false ∧ { d with bits := [true, true] }.nextBit = true ∧
      { d with readPosition := 1 }.nextBit = false ∧ s.port.doutLine = some true ∧
      (after (.answerRead [⟨true, true⟩]) s).port.doutLine = some true ∧
      (after (.answerRead [⟨true, true⟩, ⟨false, true⟩]) s).port.doutLine = some false := by decide +kernel

/-- The worked NOTICES exchange: with a notice waiting DOUT carries the NONE frame while the request is clocked in, and the
request is taken at its last edge. -/
theorem test_notices_exchange :
    let s := after .selFall (onPort (fun p => { p with period := none })
      { base with rack := base.rack.noticeSlot 0 })
    let t := after (.answerRead (clockOf ([0x63, 0x00, 0xCA].flatMap bitsOf))) s
    s.port.period.map (·.dout) = some [0x00, 0x02, 0x00, 0x00, 0xD6] ∧ s.rdy = false ∧ s.atn = true ∧
      t.port.answer = some ⟨.done, [0x00, 0x01, 0x00]⟩ ∧ t.rdy = true ∧ t.atn = false := by decide +kernel

theorem test_witness_notices : base.listening ∧ base.port.rackState ≠ .starting ∧
    (onPort (fun p => { p with rackState := .unset }) base).listening := by decide +kernel

/-- A first setup with the least and the greatest budget, and one in a run that changes neither tick nor budget. -/
theorem test_witness_setup :
    let unset := onPort (fun p => { p with rackState := .unset, tick := none }) base
    let s := withSlot (running (record .running))
    unset.listening ∧ unset.port.rackState ≠ .starting ∧ tickArg 2 = some .s1 ∧ attentionArg 0 = some true ∧
      1 ≤ (1 : Byte).toNat ∧ (32 : Byte).toNat ≤ 32 ∧ (∀ k, (unset.rack.slot k).inRun = false) ∧
      s.listening ∧ (s.rack.slot 0).inRun = true ∧ s.port.tick = some .s1 ∧ s.rack.budget = some (12 : Byte).toNat := by
  decide +kernel

theorem test_witness_setup_refused :
    let s := withSlot (running (record .running))
    base.listening ∧ tickArg 5 = none ∧ attentionArg 2 = none ∧ (0 : Byte).toNat = 0 ∧ 32 < (33 : Byte).toNat ∧
      s.listening ∧ (∃ k, (s.rack.slot k).inRun = true) ∧ tickArg 0 = some .ms10 ∧ s.port.tick ≠ some .ms10 ∧
      s.rack.budget ≠ some (13 : Byte).toNat := by decide +kernel

theorem test_witness_restart :
    let s := withSlots (running (record .running)) (slotOf { record .ready with number := 2 })
    s.takesRequests ∧ (s.rack.slot 0).record = some (record .running) ∧ (record .running).state.inRun = true ∧
      (s.rack.slot 1).inRun = false := by decide +kernel

/-! ## The case requests -/

theorem test_witness_case_numbers :
    let r := (withSlot (slotOf (record .ready))).rack
    (r.slot 0).record = some (record .ready) ∧ (record .ready).number = 1 + BitVec.ofNat 16 0 ∧
      r.nextNumber 1 = 1 + BitVec.ofNat 16 1 := by decide +kernel

theorem test_witness_case_answers :
    let s := withSlot (slotOf (record .ready))
    s.takesRequests ∧ s.rack.inUse 0 = true ∧ s.rack.inUse 15 = true ∧ (s.rack.slot 15).record = none ∧
      (1 : Byte).toNat = (0 : SlotIx).val + 1 ∧ (16 : Byte).toNat = (15 : SlotIx).val + 1 ∧
      (s.rack.slot 0).record = some (record .ready) ∧ (record .ready).number ≠ 0 := by decide +kernel

theorem test_witness_case_look_refused :
    let narrow := { base with rack := { base.rack with wide := false } }
    narrow.takesRequests ∧ 8 < (9 : Byte).toNat ∧ narrow.rack.wide = false ∧ base.takesRequests ∧
      16 < (17 : Byte).toNat ∧ (7 : Half) ≠ 0 := by decide +kernel

theorem test_witness_case_look_no_case : ∀ j c, base.rack.inUse j = true → (base.rack.slot j).record = some c →
    c.number ≠ 7 := by
  intro j c _ h
  exact of_records (P := fun _ c => c.number ≠ 7) base.rack (by decide +kernel) j c h

theorem test_witness_case_number_held_once :
    ∀ j c', ((withSlot (slotOf (record .ready))).rack.slot j).record = some c' → c'.number = (record .ready).number →
      j = 0 := by
  apply of_records; decide +kernel

/-- The shortest and the longest tag, the first and the last slot, a VALID and a LOCKED model. -/
theorem test_witness_case_open :
    let s := { base with rack := base.rack.setSlot 15 { Slot.reset with latchClosed := true } }
    let t := onStore (storeIn .locked) s
    s.takesRequests ∧ (16 : Byte).toNat = (15 : SlotIx).val + 1 ∧ s.rack.inUse 15 = true ∧
      (1 : Byte).toNat = (0 : ModelIx).val + 1 ∧ priorityArg 1 = some .rush ∧ priorityArg 0 = some .normal ∧
      1 ≤ [(0x20 : Byte)].length ∧ (List.replicate 16 (0x7E : Byte)).length ≤ 16 ∧
      (∀ b ∈ List.replicate 16 (0x7E : Byte), 0x20 ≤ b.toNat ∧ b.toNat ≤ 0x7E) ∧
      (∀ b ∈ [(0x20 : Byte)], 0x20 ≤ b.toNat ∧ b.toNat ≤ 0x7E) ∧ (s.store.slots[(0 : ModelIx)]).state = .valid ∧
      s.store.clearing = false ∧ (s.rack.slot 15).record = none ∧ (s.rack.slot 15).latchClosed = true ∧
      t.takesRequests ∧ (t.store.slots[(0 : ModelIx)]).state = .locked ∧ t.store.clearing = false := by decide +kernel

theorem test_witness_case_open_tag_free :
    ∀ j c, (base.rack.slot j).record = some c → c.tag ≠ [0x20] := by
  apply of_records; decide +kernel

theorem test_witness_case_open_bad_arguments :
    base.rack.slotArg 0 = none ∧ base.rack.slotArg 17 = none ∧ modelArg 0 = none ∧ modelArg 9 = none ∧
      tagArg [] = false ∧ tagArg (List.replicate 17 0x41) = false ∧ tagArg [0x1F] = false ∧ tagArg [0x7F] = false ∧
      priorityArg 2 = none := by decide +kernel

theorem test_witness_case_open_reasons :
    let shut := withSlot { Slot.reset with latchClosed := true }
    base.takesRequests ∧ base.rack.slotArg 1 = some 0 ∧ modelArg 8 = some 7 ∧ modelArg 1 = some 0 ∧
      tagArg [0x54] = true ∧ (priorityArg 0).isSome = true ∧
      (base.store.noModel 7 = true ∧ base.store.clearing = false) ∧
      (base.store.noModel 0 = false ∧ (base.rack.slot 0).latchClosed = false) ∧
      (onStore (storeWriting (.clear 0 false)) base).store.clearing = true ∧
      (shut.rack.slot 0).record = none ∧ (shut.rack.slot 0).latchClosed = true ∧
      ((onStore (storeIn .programming) shut).store.slots[(0 : ModelIx)]).state = .programming ∧
      (onStore (storeIn .programming) shut).store.noModel 0 = false := by decide +kernel

theorem test_witness_case_open_taken_slot_and_tag :
    let taken := withSlot (slotOf (record .ready))
    let other := withSlots { Slot.reset with latchClosed := true } (slotOf (record .ready))
    taken.takesRequests ∧ (taken.rack.slot 0).record.isSome = true ∧ taken.store.noModel 0 = false ∧
      other.takesRequests ∧ (other.rack.slot 0).record = none ∧ (other.rack.slot 0).latchClosed = true ∧
      (other.store.slots[(0 : ModelIx)]).state ≠ .programming ∧ other.rack.holdsTag none [0x54] = true := by decide +kernel

/-- Granted at once; need 0; queued for want of units; queued behind a head that does not fit. -/
theorem test_witness_case_start :
    let s := withSlot (slotOf (record .ready))
    let full := withSlots (slotOf (record .ready)) { running { record .running with number := 2 } with units := 9 }
    let behind := { full with rack := { full.rack with queue := [⟨2, 3, 4, .normal, false⟩] } }
    s.takesRequests ∧ (s.rack.slot 0).record = some (record .ready) ∧ (record .ready).state = .ready ∧
      (s.rack.slot 0).latchClosed = true ∧ s.rack.quiesce = .active ∧
      (caseModel s.store (record .ready)).largestNeed ≤ s.rack.budgetUnits ∧ s.rack.queued 0 = false ∧
      (s.rack.queue = [] ∧ (caseStage s.store (record .ready)).units ≤ s.rack.freeUnits) ∧
      full.takesRequests ∧ full.rack.queued 0 = false ∧ (caseStage full.store (record .ready)).units ≠ 0 ∧
      (record .ready).priority = .normal ∧ full.rack.queue = [] ∧
      full.rack.freeUnits < (caseStage full.store (record .ready)).units ∧
      behind.takesRequests ∧ behind.rack.queued 0 = false ∧ behind.rack.freeUnits < 4 := by decide +kernel

/-- A RUSH case granted ahead of a NORMAL entry that does not fit, and one that waits ahead of it. -/
theorem test_witness_rush_start :
    let c := { record .ready with priority := .rush }
    let ahead := queueing [⟨2, 3, 9, .normal, false⟩] (withSlot (slotOf c))
    let waits := queueing [⟨2, 3, 5, .normal, false⟩]
      (withSlots (slotOf c) { running { record .running with number := 2 } with units := 9 })
    let entry : QueueEntry := ⟨0, 1, 4, .rush, false⟩
    ahead.takesRequests ∧ ahead.rack.queued 0 = false ∧ (∀ e ∈ ahead.rack.queue, e.priority = .normal) ∧
      (caseStage store c).units = 4 ∧ 4 ≤ ahead.rack.freeUnits ∧ (ahead.rack.setUnits 0 4).freeUnits < 9 ∧
      waits.takesRequests ∧ waits.rack.queued 0 = false ∧ waits.rack.freeUnits < entry.need ∧
      waits.rack.queue.filter (fun e => e.priority = .rush) ++ entry ::
          waits.rack.queue.filter (fun e => e.priority = .normal) = [entry, ⟨2, 3, 5, .normal, false⟩] := by
  decide +kernel

/-- Slot 1 stands at a drain boundary at position 1, 1 in a state. -/
def drained (cs : CaseState) : CaseRecord :=
  { record cs with stay := { (record cs).stay with draining := true, heldAdvance := true } }

theorem test_witness_advance_due :
    (withSlot (running (drained .paused))).rack.advanceDue store 0 (drained .paused) ⟨1, 2⟩ ∧
      (held .quiesced (withSlot (running (drained .running)))).rack.advanceDue store 0 (drained .running) ⟨1, 2⟩ ∧
      (onBench (.granted 0) (withSlot { running (drained .running) with line := lineIn .passed none })).rack.advanceDue
        store 0 (drained .running) ⟨1, 2⟩ := by
  unfold Rack.advanceDue; decide +kernel

/-- What CASE RESUME, RACK WAKE and a bench release find beside it. -/
theorem test_witness_held_advances :
    let p := withSlot (running (drained .paused))
    let w := held .quiesced (withSlot (running (drained .running)))
    let b := onBench (.granted 0) (withSlot { running (drained .running) with line := lineIn .passed none })
    p.takesRequests ∧ (p.rack.slot 0).latchClosed = true ∧ p.rack.quiesce = .active ∧ p.rack.isGranted 0 = false ∧
      (caseModel p.store (drained .paused)).largestNeed ≤ p.rack.budgetUnits ∧
      w.takesRequests ∧ w.rack.quiesce ≠ .active ∧ w.rack.isGranted 0 = false ∧
      (∀ j, j ≠ 0 → (w.rack.slot j).stay.heldAdvance = true → (w.rack.slot j).caseState ≠ some .running) ∧
      b.quiet ∧ b.rack.bench.state = .granted 0 ∧ (b.rack.slot 0).line.state = .passed ∧ b.rack.quiesce = .active ∧
      debounce 5 b.rack.bench.hold b.rack.bench.holdCount false = (false, 0) ∧
      debounce 5 b.rack.bench.seize b.rack.bench.seizeCount false = (false, 0) := by decide +kernel

theorem test_witness_pause_and_resume :
    let s := withSlot (running (record .running))
    let p := withSlot (running (record .paused))
    let f := withSlot (slotOf (record (.faulted .hang)))
    s.takesRequests ∧ (s.rack.slot 0).record = some (record .running) ∧
      p.takesRequests ∧ (p.rack.slot 0).latchClosed = true ∧ p.rack.quiesce = .active ∧
      (caseModel p.store (record .paused)).largestNeed ≤ p.rack.budgetUnits ∧ (record .paused).stay.draining = false ∧
      f.takesRequests ∧ (f.rack.slot 0).latchClosed = true ∧ f.rack.queued 0 = false ∧
      (f.rack.queue = [] ∧ (caseStage f.store (record (.faulted .hang))).units ≤ f.rack.freeUnits) := by decide +kernel

theorem test_witness_stop_and_close :
    let s := withSlot (running (record .running))
    let f := withSlot (slotOf (record (.faulted .rail)))
    s.takesRequests ∧ (record .running).state.inRun = true ∧ f.takesRequests ∧
      (f.rack.slot 0).record = some (record (.faulted .rail)) ∧ (record (.faulted .rail)).state.inRun = false := by
  decide +kernel

/-- A stop with a HOLD pending for the slot; in QUIESCING, with every other sequencer idle and with one that is busy. -/
theorem test_witness_stop_and_the_rack :
    let sending : Slot := { running (record .running) with line := lineIn .send (some pokeOut) }
    let p := onLines ⟨.pending 0, true, 0, false, 0⟩ (withSlot sending)
    let q := held .quiescing (withSlot sending)
    let b := held .quiescing (withSlots sending { sending with record := some { record .running with number := 2 } })
    p.takesRequests ∧ p.rack.isPending 0 = true ∧ q.takesRequests ∧ q.rack.quiesce = .quiescing ∧
      (∀ j, j ≠ 0 → q.rack.inUse j = true → q.rack.isIdle j = true) ∧ b.takesRequests ∧
      (∃ j, j ≠ 0 ∧ b.rack.inUse j = true ∧ b.rack.isIdle j = false) := by decide +kernel

theorem test_witness_find :
    let s := withSlot (slotOf (record .ready))
    s.takesRequests ∧ [(0x54 : Byte)] ≠ [] ∧ [(0x54 : Byte)].length ≤ 16 ∧
      (∀ b ∈ [(0x54 : Byte)], 0x20 ≤ b.toNat ∧ b.toNat ≤ 0x7E) ∧ s.rack.inUse 0 = true ∧
      (s.rack.slot 0).record = some (record .ready) ∧ (record .ready).tag = [0x54] ∧
      16 < (List.replicate 17 (0x41 : Byte)).length ∧ (∃ b ∈ [(0x7F : Byte)], b.toNat < 0x20 ∨ 0x7E < b.toNat) := by
  decide +kernel

theorem test_witness_find_tag_once :
    ∀ j c', ((withSlot (slotOf (record .ready))).rack.slot j).record = some c' → c'.tag = [0x54] → j = 0 := by
  apply of_records; decide +kernel

theorem test_witness_find_no_tag : ∀ j c, base.rack.inUse j = true → (base.rack.slot j).record = some c →
    c.tag ≠ [0x54] := by
  intro j c _ h
  exact of_records (P := fun _ c => c.tag ≠ [0x54]) base.rack (by decide +kernel) j c h

/-- A rename of the case to its own tag, a new priority without an entry, and a stale stamp. -/
theorem test_witness_amend :
    let s := withSlot (slotOf (record .ready))
    s.takesRequests ∧ (s.rack.slot 0).record = some (record .ready) ∧
      amendGood ⟨1, 0, some [0x54], some 1, true⟩ = true ∧ (0 : Half) = (s.rack.slot 0).stamp ∧
      s.rack.queued 0 = false ∧ amendGood ⟨1, 9, none, none, true⟩ = true ∧ (9 : Half) ≠ (s.rack.slot 0).stamp := by
  decide +kernel

theorem test_witness_amend_tag_free :
    ∀ j c', ((withSlot (slotOf (record .ready))).rack.slot j).record = some c' → j ≠ 0 → c'.tag ≠ [0x54] := by
  apply of_records; decide +kernel

/-- A queued case made RUSH: its entry goes ahead of a NORMAL one, and is granted with the rail off and on, or waits. -/
theorem test_witness_amend_in_the_queue :
    let q : List QueueEntry := [⟨1, 2, 9, .normal, false⟩, ⟨0, 1, 4, .normal, false⟩]
    let fits := queueing q (withSlot (slotOf (record .waiting)))
    let powered := queueing q (withSlot { running (record .waiting) with units := 0 })
    let full := queueing q
      (withSlots (slotOf (record .waiting)) { running { record .running with number := 2 } with units := 9 })
    let moved : List QueueEntry := [⟨0, 1, 4, .rush, false⟩, ⟨1, 2, 9, .normal, false⟩]
    amendGood ⟨1, 0, none, some 1, false⟩ = true ∧ amendPriority ⟨1, 0, none, some 1, false⟩ = some .rush ∧
      fits.takesRequests ∧ fits.rack.queue.find? (fun e => e.slot == 0) = some ⟨0, 1, 4, .normal, false⟩ ∧
      (fits.rack.queue.filter (fun e => e.slot ≠ 0)).filter (fun e => e.priority = .rush) ++
        ⟨0, 1, 4, .rush, false⟩ :: (fits.rack.queue.filter (fun e => e.slot ≠ 0)).filter
          (fun e => e.priority = .normal) = moved ∧
      fits.rack.quiesce = .active ∧ 4 ≤ fits.rack.freeUnits ∧ (fits.rack.setUnits 0 4).freeUnits < 9 ∧
      (fits.rack.slot 0).rail.state.isOn = false ∧ powered.takesRequests ∧
      (powered.rack.slot 0).rail.state.isOn = true ∧ full.takesRequests ∧ full.rack.freeUnits < 4 := by
  decide +kernel

/-! ## The suspect requests -/

def accused (l : List Suspect) (cs : CaseState) : State := withSlot (slotOf { record cs with suspects := l })

theorem test_witness_suspect_reads :
    let s := accused [suspect 4 .opened] .ready
    s.takesRequests ∧ (s.rack.slot 0).record = some { record .ready with suspects := [suspect 4 .opened] } ∧
      1 ≤ (1 : Byte).toNat ∧ (24 : Byte).toNat ≤ 24 ∧ (1 : Byte).toNat = (0 : ModelIx).val + 1 ∧
      (s.store.slots[(0 : ModelIx)]).state = .valid ∧ s.store.clearing = false ∧
      (4 : Byte).toNat ≤ (s.store.model 0).components.length ∧ s.rack.inUse 0 = true ∧
      suspectFor 4 [suspect 4 .opened] = some (suspect 4 .opened) := by decide +kernel

/-- The component of the suspect that SUSPECT LIST gives at its first rank; two slots that SUSPECT SWEEP finds. -/
theorem test_witness_entries :
    let c := { record .ready with suspects := [suspect 4 .opened] }
    let t := withSlots (slotOf c) (slotOf { c with number := 2 })
    c.suspects[(1 : Byte).toNat - 1 + 0]? = some (suspect 4 .opened) ∧ 1 ≤ (suspect 4 .opened).component ∧
      (caseModel store c).components[(suspect 4 .opened).component - 1]? =
        some ⟨[0x56], .memory, some (0x100000, 0x1000FF), 1⟩ ∧
      t.takesRequests ∧ [(0 : SlotIx), 1].Pairwise (fun i j => i < j) ∧
      (∀ k, k ∈ [(0 : SlotIx), 1] ↔ (t.rack.sweepEntry 0 4 k).isSome = true) := by decide +kernel

/-- Every case holds twelve OPEN suspects, so no entry is free and none can be reclaimed; slot 1 has no suspect for 4. -/
def crowded : State :=
  let l := (List.range 12).map fun i => suspect (if i < 3 then i + 1 else i + 2) .opened
  { base with rack := { base.rack with
      slots := Vector.replicate 16 (slotOf { record .ready with suspects := l }) } }

theorem test_witness_notes :
    let s := accused [suspect 4 .opened] .ready
    s.takesRequests ∧ (0 : Half) = (s.rack.slot 0).stamp ∧ 1 ≤ (1 : Byte).toNat ∧
      (4 : Byte).toNat ≤ (caseModel s.store (record .ready)).components.length ∧
      suspectFor 1 [suspect 4 .opened] = none ∧ 0 < s.rack.freeEntries ∧
      1 ≤ (caseModel s.store (record .ready)).header.confirmSpread ∧
      crowded.takesRequests ∧ crowded.rack.freeEntries = 0 ∧ suspectFor 4 (crowded.rack.slot 0).suspects = none ∧
      (∀ j, ∀ x ∈ (crowded.rack.slot j).suspects, x.state ≠ .cleared ∧ x.state ≠ .reworked) := by decide +kernel

theorem test_witness_no_entry : crowded.rack.poolExhausted := by
  unfold Rack.poolExhausted; decide +kernel

/-- The pool is full, and slot `j`'s case holds a CLEARED suspect. -/
def crowdedBut (j : SlotIx) : Rack :=
  crowded.rack.modCase j fun c => { c with suspects := c.suspects.dropLast ++ [suspect 13 .cleared] }

/-- An entry for a new suspect is free, given up by the case itself, and given up by another case. -/
theorem test_witness_entry_found :
    (∃ r, (accused [] .ready).rack.entryFound r 0) ∧ (crowdedBut 0).freeEntries = 0 ∧
      (∃ r, (crowdedBut 0).entryFound r 0) ∧ (crowdedBut 5).freeEntries = 0 ∧
      (∀ x ∈ ((crowdedBut 5).slot 0).suspects, x.reclaimable = false) ∧ ∃ r, (crowdedBut 5).entryFound r 0 := by
  have found (r : Rack) (h : (r.findEntry 0).isSome = true) : ∃ r', r.entryFound r' 0 :=
    ⟨_, Rack.entryFound_of_findEntry (Option.some_get h).symm⟩
  exact ⟨found _ (by decide +kernel), by decide +kernel, found _ (by decide +kernel), by decide +kernel,
    by decide +kernel, found _ (by decide +kernel)⟩

theorem test_witness_judgements :
    (∀ st : SuspectState, st = .opened ∨ st = .confirmed ∨ st = .cleared ∨ st = .reworked →
      suspectFor 4 [suspect 4 st] = some (suspect 4 st)) ∧
    (accused [suspect 4 .confirmed] .ready).takesRequests ∧ (accused [suspect 4 .cleared] .ready).takesRequests ∧
    (accused [suspect 4 .reworked] .ready).takesRequests := by
  refine ⟨?_, by decide +kernel⟩
  rintro st (h | h | h | h) <;> subst h <;> decide +kernel

theorem test_witness_rework :
    let done : CaseState := .done .complete .marginal
    let s := accused [suspect 4 .opened] done
    s.takesRequests ∧ (s.rack.slot 0).record = some { record done with suspects := [suspect 4 .opened] } ∧
      1 ≤ (4 : Byte).toNat ∧ (4 : Byte).toNat ≤ (caseModel s.store (record done)).components.length ∧
      (∃ x ∈ [suspect 4 .opened], x.component = 4) ∧ done.reworkable = true ∧
      (∀ x ∈ [suspect 4 .opened], x.component ≠ 1) := by decide +kernel

/-- A range that meets the component's at its last address, and one that begins behind it; READY and FAULTED cases. -/
theorem test_witness_rework_by_range :
    let c := { record .ready with suspects := [suspect 4 .opened] }
    (caseModel store c).components[(suspect 4 .opened).component - 1]? =
        some ⟨[0x56], .memory, some (0x100000, 0x1000FF), 1⟩ ∧
      (0x1000FF : Addr) ≤ 0x200000 ∧ (0x100000 : Addr) ≤ 0x200000 ∧ ¬ (0x100100 : Addr) ≤ 0x1000FF ∧
      CaseState.ready.reworkable = true ∧ (CaseState.faulted .hang).reworkable = true ∧
      (accused [suspect 4 .opened] .ready).takesRequests ∧
      (accused [suspect 4 .opened] (.faulted .hang)).takesRequests := by decide +kernel

theorem test_witness_fail_items : (suspect 4 .reworked).state = .reworked ∧ 1 < header.confirmThreshold ∧
    (suspect 4 .cleared).state ≠ .reworked ∧ (suspect 4 .cleared).fails < 65535 ∧
    (suspect 4 .cleared).lastSeen = some ⟨1, 1⟩ ∧ (suspect 4 .cleared).lastSeen ≠ some ⟨1, 2⟩ := by decide +kernel

/-! ## The model requests and the store -/

theorem test_witness_staging :
    let s := onStore { store with staging := some ⟨header, [], [], Vector.replicate 4 []⟩ } base
    s.takesRequests ∧ s.store.write = none ∧
      headerArg ⟨[0x4D], 2, 1, 2, 1, 1, 3, 1, 2, 2, 2, 1, 1, 2, 3⟩ = some header ∧
      componentArg ⟨[0x4A], 6, none, none⟩ = some ⟨[0x4A], .path, none, 0⟩ ∧
      stageArg ⟨5, 0, 80, 45, 2, 4, 1, 3⟩ = some ⟨5, .nominal, 80, 45, 2, 4, 1, 3⟩ ∧
      (1 : Byte).toNat = (0 : Fin 4).val + 1 ∧ (4 : Byte).toNat = (3 : Fin 4).val + 1 := by
  decide +kernel

/-- Arguments in range at their ends, and one that is out of it, of each request that checks ranges. -/
theorem test_witness_argument_ranges :
    let ok (a : ModelBeginArgs) := (headerArg a).isSome
    ok ⟨List.replicate 12 0x7E, 3, 3, 255, 16, 0, 1, 15, 1, 1, 1, 1, 24, 24, 24⟩ = true ∧
      ok ⟨[0x20], 0, 0, 1, 1, 0, 1, 0, 1, 1, 1, 1, 1, 1, 1⟩ = true ∧
      ok ⟨[0x20], 0, 0, 1, 17, 0, 1, 0, 1, 1, 1, 1, 1, 1, 1⟩ = false ∧
      (componentArg ⟨List.replicate 8 0x20, 6, some (5, 4), some 7⟩).isSome = true ∧
      componentArg ⟨[0x4A], 6, none, some 0⟩ = none ∧ stageArg ⟨0, 0, 80, 45, 2, 4, 1, 3⟩ = none ∧
      (stageArg ⟨1, 2, 100, 100, 0, 15, 4, 0⟩).isSome = true ∧ (5 : Byte).toNat > 4 := by
  decide +kernel

theorem test_witness_staging_not_full :
    let m : Model := ⟨header, List.replicate 23 ⟨[0x4A], .path, none, 0⟩, List.replicate 7 Stage.blank,
      #v[List.replicate 31 peek, [], [], []]⟩
    let s := onStore { store with staging := some m } base
    s.takesRequests ∧ s.store.staging = some m ∧ m.components.length < 24 ∧ m.stages.length < 8 ∧
      m.programs[(0 : Fin 4)].length < 32 := by decide +kernel

theorem test_witness_discard : base.takesRequests ∧ base.store.write = none ∧ base.store.staging = none ∧
    (onStore (storeWriting (.lockMark 0)) base).takesRequests ∧
    (onStore (storeWriting (.lockMark 0)) base).store.write ≠ none := by decide +kernel

theorem test_the_model_is_good : model.fault = none ∧ { model with components := [] }.fault = some (1, 0) := by
  decide +kernel

/-- A bound-to-next mark that is neither yes nor no is stored as given, and refused at the commit with BAD-STEP. -/
theorem test_a_bad_bound_mark_waits_for_the_commit :
    let s := onStore { store with staging := some { model with programs := #v[[], [], [], []] } } base
    let t := after (.modelAddStep (some ⟨1, 1, 0, 1, 0, 0, 0, 2⟩)) s
    t.port.answer.any (·.status == .done) = true ∧
      t.store.staging.map (·.programs[0]) = some [⟨1, 0, 1, 0, 0, 0, 2⟩] ∧
      t.store.staging.bind Model.fault = some (6, 0x101) := by decide +kernel

theorem test_witness_commit :
    let s := onStore { store with staging := some model } base
    let bad := onStore { store with staging := some { model with stages := [] } } base
    let writing := onStore { storeWriting (.lockMark 0) with staging := some model } base
    let shut := onStore { storeIn .locked with staging := some model } base
    let named := onStore { store with staging := some model } (withSlot (slotOf (record .ready)))
    s.takesRequests ∧ (8 : Byte).toNat = (7 : ModelIx).val + 1 ∧ s.store.staging = some model ∧ model.fault = none ∧
      s.store.write = none ∧ (s.store.slots[(7 : ModelIx)]).state ≠ .locked ∧
      bad.takesRequests ∧ { model with stages := [] }.fault = some (2, 0) ∧
      writing.takesRequests ∧ writing.store.write ≠ none ∧
      shut.takesRequests ∧ (shut.store.slots[(0 : ModelIx)]).state = .locked ∧
      named.takesRequests ∧ (named.rack.slot 0).record = some (record .ready) ∧ (record .ready).model = 0 := by
  decide +kernel

theorem test_witness_commit_not_named : ∀ k c, (base.rack.slot k).record = some c → c.model ≠ 7 := by
  apply of_records; decide +kernel

theorem test_witness_store_ends :
    (onStore (storeWriting (.programming 0)) base).quiet ∧ (onStore (storeWriting (.lockMark 0)) base).quiet ∧
      (onStore (storeWriting (.clear 0 false)) base).quiet ∧ (onStore (storeWriting (.clear 7 true)) base).quiet ∧
      (onStore (storeWriting (.clear 7 true)) base).store.write = some (.clear 7 true) := by decide +kernel

theorem test_witness_model_read :
    base.takesRequests ∧ (1 : Byte).toNat = (0 : ModelIx).val + 1 ∧ (base.store.slots[(0 : ModelIx)]).state = .valid ∧
      (base.store.model 0).components[(4 : Byte).toNat - 1]? = some ⟨[0x56], .memory, some (0x100000, 0x1000FF), 1⟩ ∧
      (base.store.model 0).stages[(2 : Byte).toNat - 1]? = some ⟨4, .low, 80, 45, 0, 6, 1, 0⟩ ∧
      (base.store.model 0).programs[(0 : Fin 4)][(2 : Byte).toNat - 1]? = some peek ∧ base.store.write = none := by
  decide +kernel

theorem test_witness_lock_and_clear :
    (base.store.slots[(0 : ModelIx)]).state = .valid ∧ (base.store.slots[(7 : ModelIx)]).state ≠ .valid ∧
      (∀ k, (base.rack.slot k).record = none) ∧ (withSlot (slotOf (record .ready))).takesRequests ∧
      (∃ k, ((withSlot (slotOf (record .ready))).rack.slot k).record.isSome = true) := by decide +kernel

theorem test_witness_startup_check : State.reset.quiet ∧ State.reset.port.rackState = .starting := by decide +kernel

/-! ## Stages, heat, quiesce and budget -/

def atPosition (p : Position) (c : CaseRecord) : CaseRecord :=
  { c with stay := Stay.begin p (model.stage p.stage) }

/-- Holder A drives, holder B drives, and a stage with half-period 0; the least and the greatest duty. -/
theorem test_witness_heater_trim :
    let a := withSlot (running (record .running))
    let b := withSlot (running { record .paused with stay := { (record .paused).stay with driving := .b } })
    let z := withSlot (running (atPosition ⟨1, 2⟩ (record .waiting)))
    a.takesRequests ∧ b.takesRequests ∧ z.takesRequests ∧ (0 : Byte).toNat ≤ 100 ∧ (100 : Byte).toNat ≤ 100 ∧
      (caseStage a.store (record .running)).halfPeriod ≠ 0 ∧ (record .running).stay.driving = .a ∧
      (caseStage z.store (atPosition ⟨1, 2⟩ (record .waiting))).halfPeriod = 0 := by decide +kernel

theorem test_witness_heater :
    let s := withSlots (running (record .running)) (slotOf { record .ready with number := 2 })
    (s.rack.slot 0).record = some (record .running) ∧ s.rack.quiesce = .active ∧ s.rack.heaterDuty 0 = 80 ∧
      (s.rack.slot 1).record = some { record .ready with number := 2 } ∧ (s.rack.slot 2).record = none ∧
      (held .quiesced s).rack.quiesce ≠ .active ∧ (held .quiesced s).rack.heaterDuty 0 = 0 := by decide +kernel

theorem test_witness_heater_under_a_grant :
    let s := onBench (.granted 0) (withSlot { running (record .running) with line := lineIn .passed none })
    s.quiet ∧ s.rack.isGranted 0 = true ∧ s.rack.heaterDuty 0 = 80 := by decide +kernel

theorem test_witness_budget_look_before_setup :
    let starting := onPort (fun p => { p with rackState := .starting }) base
    let unset := onPort (fun p => { p with rackState := .unset }) base
    starting.listening ∧ starting.port.rackState = .starting ∧ unset.listening ∧ unset.port.rackState = .unset ∧
      base.takesRequests := by decide +kernel

theorem test_witness_quiesce :
    let s := withSlot { running (record .running) with line := lineIn .send (some pokeOut) }
    s.takesRequests ∧ s.rack.quiesce = .active ∧ (∃ k, s.rack.inUse k = true ∧ s.rack.isIdle k = false) ∧
      base.takesRequests ∧ (∀ k, base.rack.inUse k = true → base.rack.isIdle k = true) ∧
      (held .quiescing s).takesRequests ∧ (held .quiescing s).rack.quiesce ≠ .active := by decide +kernel

theorem test_witness_wake :
    let s := held .quiesced (withSlot (running (record .running)))
    s.takesRequests ∧ s.rack.quiesce ≠ .active ∧ s.rack.queue = [] ∧
      (∀ k, (s.rack.slot k).stay.heldAdvance = true → (s.rack.slot k).caseState ≠ some .running) := by decide +kernel

/-! ## The tick and its expiries -/

/-- Slot 1 RUNNING with a beat counter and a rail in SAG, slot 2 POWERING with a boot counter and a rail RISING, slot 3
RESTING. -/
def ticking : State :=
  let powering : Slot := { slotOf { record .powering with number := 2 } with
    rail := ⟨.rising, .nominal, 0, 0, none⟩, watch := ⟨none, 1, some 0, none⟩ }
  let resting : Slot := { slotOf { record .resting with number := 3 } with rail := ⟨.off, .nominal, 0, 0, some 0⟩ }
  let sagging : Slot := { running (record .running) with rail := ⟨.sag, .nominal, 0, 0, none⟩ }
  { base with rack := ((base.rack.setSlot 0 sagging).setSlot 1 powering).setSlot 2 resting }

theorem test_witness_tick :
    State.reset.quiet ∧ State.reset.port.rackState ≠ .set ∧ ticking.quiet ∧ ticking.port.rackState = .set ∧
      (ticking.rack.slot 0).record = some (record .running) ∧ (record .running).stay.draining = false ∧
      (ticking.rack.slot 0).rail.state ≠ .rising ∧ (ticking.rack.slot 1).rail.state ≠ .sag ∧
      (ticking.rack.slot 0).watch.boot = none ∧ (ticking.rack.slot 1).caseState ≠ some .resting ∧
      ticking.rack.isGranted 0 = false ∧ ticking.rack.quiesce = .active ∧ (ticking.rack.slot 0).rail.state = .sag ∧
      (ticking.rack.slot 0).watch.beat = some 0 ∧ (ticking.rack.slot 1).caseState = some .powering ∧
      (ticking.rack.slot 1).rail.state = .rising ∧ (ticking.rack.slot 1).watch.boot = some 0 ∧
      (ticking.rack.slot 2).caseState = some .resting ∧ (ticking.rack.slot 2).rail.rest = some 0 := by decide +kernel

/-- A tick wait in a held rack sees the tick. -/
theorem test_a_tick_is_seen_by_a_wait :
    let s := held .quiesced (withSlot { slotOf (record .powering) with seq := ⟨.hail, 1, 0, none, none, true, false⟩ })
    s.quiet ∧ (after .rackTick s).rack.slot 0 = { s.rack.slot 0 with seq := ⟨.hail, 1, 0, none, none, true, true⟩ } := by
  decide +kernel

/-- The timer at the duration of stage 1, whose next stage needs 6 units, and of stage 2, the last. -/
def matched (p : Position) (elapsed : Nat) : CaseRecord :=
  { record .running with stay := { Stay.begin p (model.stage p.stage) with elapsed := elapsed } }

theorem test_witness_stage_match :
    let s := withSlot (running (matched ⟨1, 1⟩ 5))
    let t := withSlot { running (matched ⟨1, 1⟩ 5) with line := lineIn .send (some pokeOut) }
    let e := withSlot (running (matched ⟨1, 2⟩ 4))
    (s.rack.slot 0).record = some (matched ⟨1, 1⟩ 5) ∧ (matched ⟨1, 1⟩ 5).stay.draining = false ∧
      (matched ⟨1, 1⟩ 5).stay.elapsed = (caseStage s.store (matched ⟨1, 1⟩ 5)).duration ∧
      s.rack.quiesce = .active ∧ s.rack.bench.state = .idle ∧ (t.rack.slot 0).line.exchange.isSome = true ∧
      (s.rack.slot 0).atBoundary = true ∧ (s.rack.slot 0).seq.mode = .program ∧ (matched ⟨1, 1⟩ 5).suspects = [] ∧
      (caseModel s.store (matched ⟨1, 1⟩ 5)).nextPosition ⟨1, 1⟩ = some ⟨1, 2⟩ ∧ s.rack.queue = [] ∧
      ((caseModel s.store (matched ⟨1, 1⟩ 5)).stage 2).units ≤ (s.rack.setUnits 0 0).freeUnits ∧
      (matched ⟨1, 2⟩ 4).stay.elapsed = (caseStage e.store (matched ⟨1, 2⟩ 4)).duration ∧
      (caseModel e.store (matched ⟨1, 2⟩ 4)).nextPosition ⟨1, 2⟩ = none := by decide +kernel

/-- An advance with a suspect for the rail component, both marks yes: the PASS reaches it before the stay begins, and the
beat counter is armed for a stage whose window is not 0, from 1 where a hang is due. -/
theorem test_witness_stage_clean :
    let c := { matched ⟨1, 1⟩ 5 with suspects := [suspect 2 .confirmed] }
    let s := withSlot { running c with watch := ⟨some 3, 3, none, none⟩ }
    (s.rack.slot 0).record = some c ∧ c.stay.railClean = true ∧ c.stay.hangClean = true ∧
      (s.rack.slot 0).watch.window ≤ 3 ∧
      ∃ r, s.rack.leavesStay store r 0 c ∧
        (r.slot 0).suspects = [{ suspect 2 .confirmed with passes := 1, quiet := 1 }] := by
  refine ⟨by decide +kernel, by decide +kernel, by decide +kernel, by decide +kernel, _, ⟨_, rfl, rfl⟩, ?_⟩
  decide +kernel

/-- The 6 units of stage 2 do not fit beside a case that holds 9. -/
theorem test_witness_ungranted_advance :
    let s := withSlots (running (matched ⟨1, 1⟩ 5)) { running { record .running with number := 2 } with units := 8 }
    (s.rack.slot 0).record = some (matched ⟨1, 1⟩ 5) ∧ s.rack.quiesce = .active ∧ s.rack.bench.state = .idle ∧
      (s.rack.slot 0).atBoundary = true ∧ ((caseModel s.store (matched ⟨1, 1⟩ 5)).stage 2).units = 6 ∧
      (matched ⟨1, 1⟩ 5).priority = .normal ∧ s.rack.queue = [] ∧ (s.rack.setUnits 0 0).freeUnits < 6 := by
  decide +kernel

theorem test_witness_switch_and_rest_end :
    let c := { record .running with stay := { (record .running).stay with alternation := 2 } }
    let s := withSlot (running c)
    let t := withSlot { slotOf (record .resting) with rail := ⟨.off, .nominal, 0, 0, some 2⟩ }
    (s.rack.slot 0).record = some c ∧ (caseStage s.store c).halfPeriod ≠ 0 ∧
      c.stay.alternation = (caseStage s.store c).halfPeriod ∧ (t.rack.slot 0).record = some (record .resting) ∧
      (t.rack.slot 0).rail.rest = some (caseModel t.store (record .resting)).header.restTime := by decide +kernel

theorem test_witness_allowances :
    let s := withSlot { running (record .running) with rail := ⟨.rising, .nominal, 2, 0, none⟩ }
    let t := withSlot { running (record .paused) with rail := ⟨.sag, .nominal, 0, 2, none⟩ }
    (s.rack.slot 0).rail.state = .rising ∧
      (s.rack.slot 0).rail.rise = (caseModel s.store (record .running)).header.riseAllowance ∧
      (t.rack.slot 0).rail.state = .sag ∧
      (t.rack.slot 0).rail.sag = (caseModel t.store (record .paused)).header.sagAllowance := by decide +kernel

/-- A hang within the strike limit of 1 and beyond it, in RUNNING and in WAITING with the rail on; a boot failure. -/
theorem test_witness_hangs :
    let late : Slot := { running (record .running) with watch := ⟨some 3, 3, none, none⟩ }
    let waiting : Slot := { late with record := some { record .waiting with strikes := 1 }, units := 0 }
    let booting : Slot := { slotOf (record .powering) with watch := ⟨none, 1, some 3, none⟩ }
    ((withSlot late).rack.slot 0).watch.beat = some ((withSlot late).rack.slot 0).watch.window ∧
      (record .running).strikes + 1 ≤ (caseModel store (record .running)).header.strikeLimit ∧
      ((withSlot waiting).rack.slot 0).rail.state.isOn = true ∧
      (caseModel store (record .waiting)).header.strikeLimit < 1 + 1 ∧
      ((withSlot booting).rack.slot 0).watch.boot = some (caseModel store (record .powering)).header.bootAllowance := by
  decide +kernel

/-- A hang and a rise expiry with a HOLD pending for the slot. -/
theorem test_witness_expiries_under_a_hold :
    let hold : State → State := onLines ⟨.pending 0, true, 0, false, 0⟩
    let late := hold (withSlot { running (record .running) with
      watch := ⟨some 3, 3, none, none⟩, line := lineIn .send (some pokeOut) })
    let low := hold (withSlot { running (record .running) with
      rail := ⟨.rising, .nominal, 2, 0, none⟩, line := lineIn .send (some pokeOut) })
    late.rack.isPending 0 = true ∧ (late.rack.slot 0).record = some (record .running) ∧
      (late.rack.slot 0).watch.beat = some (late.rack.slot 0).watch.window ∧
      low.rack.isPending 0 = true ∧ (low.rack.slot 0).record = some (record .running) ∧
      (low.rack.slot 0).rail.rise = (caseModel low.store (record .running)).header.riseAllowance := by decide +kernel

theorem test_witness_tick_wait :
    let s := withSlot { slotOf (record .powering) with seq := ⟨.hail, 1, 0, none, none, true, true⟩ }
    (s.rack.slot 0).record = some (record .powering) ∧ (s.rack.slot 0).seq.mode = .hail ∧
      (s.rack.slot 0).seq.tickWait = true ∧ (s.rack.slot 0).seq.waitTickSeen = true ∧
      (s.rack.slot 0).line.exchange = none ∧ (s.rack.slot 0).line.state = .idle ∧ s.rack.quiesce = .active ∧
      s.rack.bench.state = .idle := by decide +kernel

/-! ## Rails, latches and the heartbeat -/

/-- The edges of the three supervision levels at NOMINAL. -/
theorem test_witness_scans :
    let at_ (l : RailState) := withSlot { running (record .running) with rail := ⟨l, .nominal, 0, 0, none⟩ }
    (at_ .off).quiet ∧ (at_ .tripped).quiet ∧ (at_ .rising).quiet ∧ (at_ .good).quiet ∧ (at_ .sag).quiet ∧
      ((at_ .sag).rack.slot 0).record = some (record .running) ∧ (at_ .sag).rack.inUse 0 = true ∧
      950 ≤ railLevel .nominal 950000 ∧ railLevel .nominal 949999 < 950 ∧ 920 ≤ railLevel .nominal 920000 ∧
      railLevel .nominal 919999 < 920 ∧ 850 ≤ railLevel .nominal 850000 ∧ railLevel .nominal 849999 < 850 ∧
      ((at_ .sag).rack.slot 0).rail.state.isOn = true := by decide +kernel

/-- The first GOOD of a POWERING, with the line free and granted; an OFF rail of an EMPTY slot; trips and sags in the other
states of a run. -/
theorem test_witness_first_good :
    let rising : Slot := { slotOf (record .powering) with rail := ⟨.rising, .nominal, 0, 0, none⟩ }
    let s := withSlot rising
    let g := onBench (.granted 0) (withSlot { rising with line := lineIn .passed none })
    let w := withSlot { running (record .waiting) with units := 0 }
    s.quiet ∧ (s.rack.slot 0).record = some (record .powering) ∧ (s.rack.slot 0).seq.mode = .off ∧
      (s.rack.slot 0).seq.tickWait = false ∧ (s.rack.slot 0).line.exchange = none ∧ s.rack.isPending 0 = false ∧
      s.rack.isGranted 0 = false ∧ (s.rack.slot 0).line.state = .idle ∧ g.quiet ∧ g.rack.isGranted 0 = true ∧
      (held .quiescing s).quiet ∧ base.quiet ∧ (base.rack.slot 3).rail.state = .off ∧
      (s.rack.slot 0).rail.state.isOn = true ∧ w.quiet ∧ (w.rack.slot 0).rail.state = .good := by decide +kernel

/-- The twentieth sample in a row that disagrees, one before it, and one that agrees. -/
theorem test_witness_latches :
    let at_ (n : Nat) (sl : Slot) := withSlot { sl with latchCount := n }
    let shut := at_ 19 { Slot.reset with latchClosed := true }
    let run := at_ 19 (running (record .running))
    let pulled := at_ 19 { slotOf (record .pulled) with latchClosed := false }
    let clamped := at_ 19 Slot.reset
    shut.quiet ∧ shut.rack.inUse 0 = true ∧ (shut.rack.slot 0).latchClosed = true ∧ (shut.rack.slot 0).inRun = false ∧
      (shut.rack.slot 0).latchCount = 19 ∧
      run.quiet ∧ (run.rack.slot 0).record = some (record .running) ∧ (run.rack.slot 0).latchClosed = true ∧
      clamped.quiet ∧ (clamped.rack.slot 0).latchClosed = false ∧ (clamped.rack.slot 0).caseState ≠ some .pulled ∧
      pulled.quiet ∧ (pulled.rack.slot 0).record = some (record .pulled) ∧ (pulled.rack.slot 0).latchClosed = false ∧
      (at_ 18 Slot.reset).quiet ∧ ((at_ 18 Slot.reset).rack.slot 0).latchCount < 19 ∧
      ({ base with rack := { base.rack with wide := false } } : State).rack.inUse 8 = false := by decide +kernel

/-- A pull of the slot that a HOLD is pending for. -/
theorem test_witness_pull_under_a_hold :
    let s := onLines ⟨.pending 0, true, 0, false, 0⟩
      (withSlot { running (record .running) with latchCount := 19, line := lineIn .send (some pokeOut) })
    s.quiet ∧ s.rack.isPending 0 = true ∧ (s.rack.slot 0).latchClosed = true ∧ (s.rack.slot 0).latchCount = 19 ∧
      (record .running).state.inRun = true := by decide +kernel

theorem test_witness_heartbeat : base.quiet ∧ base.rack.inUse 15 = true ∧
    (withSlot { running (record .running) with watch := ⟨some 2, 3, none, some false⟩ }).quiet := by decide +kernel

/-! ## The bench port -/

theorem test_witness_bench_samples :
    benchRow (.benchHold 0) = some (0, true, false) ∧ benchRow (.benchSeize 3 true) = some (3, true, true) ∧
      benchRow (.holdWithdrawal 0) = some (0, false, false) ∧ benchRow (.benchRelease 0) = some (0, false, false) ∧
      debounce 5 false 4 true = (true, 0) ∧ debounce 5 false 3 true = (false, 4) ∧ debounce 5 true 4 false = (false, 0) :=
  by decide +kernel

/-- Under a grant of slot 1 a low of the station at BSNS shows on its line and on no other; with the switch open on none. -/
theorem test_pass_switch :
    let g := (onBench (.granted 0) (withSlot { running (record .running) with line := lineIn .passed none })).rack
    g.snsLevel 0 0 false true = false ∧ g.snsLevel 0 0 false false = true ∧ g.snsLevel 1 0 false true = true ∧
      g.bsnsLevel 0 (fun _ => true) false = some false ∧ base.rack.snsLevel 0 0 false true = true ∧
      base.rack.bsnsLevel 0 (fun _ => true) true = none ∧
      (onBench (.pending 0) base).rack.passSwitch = none := by decide +kernel

/-- A HOLD at a boundary and with an exchange in flight; a request left waiting; a withdrawal; a release. -/
theorem test_witness_hold :
    let rise (b : BenchState) : State → State := onLines ⟨b, false, 4, false, 0⟩
    let free := rise .idle (withSlot (running (record .running)))
    let sending := rise .idle (withSlot { running (record .running) with line := lineIn .send (some pokeOut) })
    let passed := withSlot { running (record .running) with line := lineIn .passed none }
    free.quiet ∧ free.rack.inUse 0 = true ∧ free.rack.bench.state = .idle ∧ (free.rack.slot 0).atBoundary = true ∧
      sending.quiet ∧ (sending.rack.slot 0).atBoundary = false ∧
      (onBench (.pending 0) sending).quiet ∧ (onBench (.pending 0) sending).rack.bench.state = .pending 0 ∧
      ((onBench (.pending 0) sending).rack.slot 0).line.exchange.isSome = true ∧
      (onBench (.granted 0) passed).quiet ∧ (onBench (.granted 0) passed).rack.bench.state = .granted 0 ∧
      ((onBench (.granted 0) passed).rack.slot 0).stay.draining = false ∧
      ((onBench (.granted 0) passed).rack.slot 0).line.state = .passed := by decide +kernel

/-- A SEIZE from IDLE inside a run, one of the pending slot outside a run, and one with nothing in flight. -/
theorem test_witness_seize :
    let rise (b : BenchState) : State → State := onLines ⟨b, true, 0, false, 4⟩
    let inRun := rise .idle (withSlot { running (record .running) with
      line := lineIn .send (some pokeOut), seq := ⟨.program, 2, 1, some 1, some (2, 0), false, false⟩ })
    let outside := rise (.pending 0) (withSlot { running (record .running) with line := lineIn .send (some pokeOut) })
    let still := onLines ⟨.idle, false, 0, true, 0⟩ (withSlot (running (record .running)))
    inRun.quiet ∧ inRun.rack.inUse 0 = true ∧ inRun.rack.bench.state = .idle ∧ inRun.rack.bench.seizeCount = 4 ∧
      (inRun.rack.slot 0).line.exchange = some pokeOut ∧ (inRun.rack.slot 0).stay.draining = false ∧
      (inRun.rack.slot 0).seq.runStart = some 1 ∧ outside.quiet ∧ outside.rack.bench.state = .pending 0 ∧
      outside.rack.bench.seize = false ∧ (outside.rack.slot 0).seq.runStart = none ∧
      still.quiet ∧ still.rack.bench.seize = true ∧ (still.rack.slot 0).line.exchange = none := by decide +kernel

/-- A SEIZE of a draining case inside a run with nothing in flight, outside a run, and with an exchange in flight; in
QUIESCING with every other sequencer idle. -/
theorem test_witness_seize_of_a_drain :
    let c : CaseRecord := { record .running with stay := { (record .running).stay with draining := true } }
    let rise : State → State := onLines ⟨.idle, true, 0, false, 4⟩
    let still := rise (withSlot { running c with seq := ⟨.program, 2, 0, some 1, some (1, 1), false, false⟩ })
    let free := rise (withSlot (running c))
    let sending := held .quiescing (rise (withSlot { running c with line := lineIn .send (some pokeOut) }))
    still.quiet ∧ still.rack.bench.state = .idle ∧ (still.rack.slot 0).record = some c ∧ c.stay.draining = true ∧
      (still.rack.slot 0).line.exchange = none ∧ (still.rack.slot 0).seq.runStart ≠ none ∧
      free.quiet ∧ (free.rack.slot 0).seq.mode = .program ∧ (free.rack.slot 0).seq.runStart = none ∧
      sending.quiet ∧ (sending.rack.slot 0).line.exchange.isSome = true ∧ sending.rack.quiesce = .quiescing ∧
      (∀ j, j ≠ 0 → sending.rack.inUse j = true → sending.rack.isIdle j = true) := by decide +kernel

/-! ## The sense line -/

theorem test_witness_echoes :
    let waits : Exchange := { pokeOut with sent := 0 }
    let s := withSlot { running (record .running) with line := lineIn .send (some waits) }
    let t := withSlot { running (record .running) with line := lineIn .send (some pokeOut) }
    let h := withSlot { slotOf (record .powering) with
      line := lineIn .send (some (hailOut [])), seq := seqIn .hail none }
    s.quiet ∧ (s.rack.slot 0).line.state = .send ∧ (s.rack.slot 0).line.exchange = some waits ∧
      t.quiet ∧ pokeOut.probe.chars[pokeOut.sent - 1]? = some 0xB2 ∧ pokeOut.sent < pokeOut.probe.chars.length ∧
      h.quiet ∧ (hailOut []).sent = (hailOut []).probe.chars.length ∧ 0 < (hailOut []).probe.replies := by decide +kernel

theorem test_witness_strays :
    let s (l : Line) := withSlot { running (record .running) with line := l }
    (s (lineIn .idle none)).quiet ∧ (s (lineIn .breaking (some pokeOut))).quiet ∧
      (s (lineIn .settle (some pokeOut))).quiet ∧
      (onBench (.granted 0) (s (lineIn .passed none))).quiet := by decide +kernel

/-- The looks at a line that is high, glitches, and then carries a character. -/
def looksOf (b : Byte) : List Bool := [true, false, true, true, false] ++ charBits b

/-- The bits of A5h on the line and as they are received, behind a glitch; a line held low, read once; a character with one
sample missing; a wrong parity bit. -/
theorem test_characters :
    charBits 0xA5 = [false, true, false, true, false, false, true, false, true, false, true] ∧
      receive (looksOf 0xA5) = some ⟨0xA5, false, true⟩ ∧
      receive (true :: List.replicate 30 false) = some ⟨0, false, false⟩ ∧ receive (List.replicate 30 false) = none ∧
      receive (looksOf 0xA5).dropLast = none ∧
      receive [true, false, false, true, false, true, false, false, true, false, true, true, true] =
        some ⟨0xA5, true, true⟩ := by decide +kernel

/-- The level of SNSn in a character, before the first one, in a BREAK and at its end, and with the board low. -/
theorem test_line_level :
    let l := lineIn .send (some (hailOut []))
    (List.range 12).map (fun i => l.level i false) = charBits 0xA5 ++ [true] ∧ l.level 1 true = false ∧
      (lineIn .send (some { hailOut [] with sent := 0 })).level 0 false = true ∧
      (lineIn .breaking (some pokeOut)).level 21 false = false ∧
      (lineIn .breaking (some pokeOut)).level 22 false = true ∧ (lineIn .idle none).level 0 false = true := by
  decide +kernel

/-- A row with a character that is not whole yet leaves an attempt waiting. -/
theorem test_a_part_of_a_character_is_no_echo :
    let s := withSlot { running (record .running) with line := lineIn .send (some pokeOut) }
    s.quiet ∧ receive (looksOf 0xB2).dropLast = none ∧ after (.echoReceived 0 (looksOf 0xB2).dropLast) s = s ∧
      ((after (.echoReceived 0 (looksOf 0xB2)) s).rack.slot 0).line.exchange = some { pokeOut with sent := 2 } := by
  decide +kernel

theorem test_witness_failed_attempts :
    let s := withSlot { running (record .running) with line := lineIn .send (some pokeOut) }
    let read : Exchange := ⟨.peek .atForm .atForm 0x100000, 1, 1, 4, []⟩
    let t := withSlot { running (record .running) with line := lineIn .reply (some read) }
    s.quiet ∧ (s.rack.slot 0).record = some (record .running) ∧ (s.rack.slot 0).line.exchange = some pokeOut ∧
      pokeOut.probe.chars[pokeOut.sent - 1]? = some 0xB2 ∧ receive (looksOf 0xB3) = some ⟨0xB3, true, true⟩ ∧
      (0xB3 : Byte) ≠ 0xB2 ∧ evenParity 0xB2 = false ∧
      t.quiet ∧ (t.rack.slot 0).line.state = .reply ∧ (t.rack.slot 0).line.exchange = some read ∧
      (caseModel t.store (record .running)).lookup 0x100000 = some (4, 1) ∧
      (caseModel t.store (record .running)).lookup 0 = none := by decide +kernel

/-- The last character of the longest probe, and the second returned byte of a HAIL. -/
theorem test_places_of_fault :
    ({ pokeOut with sent := 5 }.record 1 .noecho).place = some 5 ∧ ((hailOut [0x3A]).record 1 .silent).place = some 2 ∧
      ((hailOut []).record 0 .parity).final = true ∧ ((hailOut []).record 1 .parity).final = false := by decide +kernel

theorem test_witness_hail :
    let s (returned : List Byte) (id : Option Half) :=
      withSlot { slotOf { record .powering with boardId := id } with
        line := lineIn .reply (some (hailOut returned)), seq := seqIn .hail none }
    (s [] none).quiet ∧ (s [0x3A] none).quiet ∧ (s [0x3A] (some 0x3A51)).quiet ∧ (s [0x3A] (some 0)).quiet ∧
      ((0x3A : Byte) ++ (0x51 : Byte) : Half) = 0x3A51 ∧
      receive (looksOf 0x51) = some ⟨0x51, evenParity 0x51, true⟩ ∧ (hailOut [0x3A]).probe = .hail ∧
      ((s [] none).rack.slot 0).seq.mode = .hail ∧ (s [] none).rack.queued 0 = false := by decide +kernel

/-- A HAIL that ends for a case queued through a rest, with a suspect for the path component. -/
theorem test_witness_hail_of_a_queued_case :
    let c := { record .powering with suspects := [suspect 1 .opened] }
    let s := queueing [⟨0, 1, 4, .normal, true⟩] (withSlot { slotOf c with
      line := lineIn .reply (some (hailOut [0x3A])), seq := seqIn .hail none, rail := ⟨.good, .nominal, 0, 0, none⟩ })
    s.quiet ∧ (s.rack.slot 0).record = some c ∧ c.boardId = none ∧ c.stay.draining = false ∧
      s.rack.quiesce = .active ∧ s.rack.bench.state = .idle ∧ s.rack.queued 0 = true ∧
      (∃ d, ((s.rack.passItem s.store 0 1).slot 0).record = some d) := by
  refine ⟨by decide +kernel, by decide +kernel, by decide +kernel, by decide +kernel, by decide +kernel,
    by decide +kernel, by decide +kernel, ?_⟩
  exact Option.isSome_iff_exists.mp (by decide +kernel)

theorem test_witness_break_and_settle :
    let s (state : LineState) (attempt : Nat) (mode : SeqMode) := withSlot { running (record .running) with
      line := lineIn state (some { hailOut [] with attempt := attempt }), seq := seqIn mode none }
    (s .breaking 1 .program).quiet ∧ (s .settle 1 .program).quiet ∧ (s .settle 2 .hail).quiet ∧
      Probe.retry (.peek .onForm .onForm 5) = .peek .onForm .atForm 5 ∧
      Probe.retry (.poke .onForm .onForm 5 7) = .poke .onForm .atForm 5 7 ∧
      1 ≤ (caseModel store (record .running)).header.retries ∧
      (caseModel store (record .running)).header.retries < 2 := by decide +kernel

/-! ## The probe sequencer -/

theorem test_witness_patterns : poke.pattern = 1 ∧ peek.pattern = 1 ∧ { poke with pattern := 0 }.pattern = 0 ∧
    { poke with pattern := 2 }.pattern = 2 ∧ { poke with pattern := 3 }.pattern = 3 := by decide +kernel

/-- The map of the small model at the ends of its one range and just outside them. -/
theorem test_witness_lookup :
    model.components[3]? = some ⟨[0x56], .memory, some (0x100000, 0x1000FF), 1⟩ ∧
      model.lookup 0x100000 = some (4, 1) ∧ model.lookup 0x1000FF = some (4, 1) ∧ model.lookup 0x0FFFFF = none ∧
      model.lookup 0x100100 = none := by decide +kernel

theorem test_witness_disjoint_ranges : model.components.Pairwise fun x y =>
    ∀ a b c d, x.range = some (a, b) → y.range = some (c, d) → b < c ∨ d < a := by
  simp [model, parts]

/-- The first exchange of the bound POKE step, which starts a run, and the second one of the PEEK step, asked for as ON with
the pointer sure and not sure. -/
theorem test_witness_issue :
    let first := running (record .running)
    let next (sure : Bool) : Slot := { first with
      line := { first.line with sure := sure }, seq := ⟨.program, 2, 1, none, some (2, 0), false, false⟩ }
    currentStep store (record .running) first.seq = some poke ∧ poke.kind = 2 ∧ poke.bound = 0 ∧
      first.seq.index = 0 ∧ first.seq.runStart = none ∧ (first.line.lastEnd = .within) = False ∧
      currentStep store (record .running) (next true).seq = some peek ∧ peek.kind = 1 ∧
      (next false).seq.lastExchange = some ((next false).seq.step, (next false).seq.index - 1) ∧
      (issueProgram store (record .running) (next true)).line.exchange =
        some ⟨.peek .onForm .onForm 1, 0, 1, 1, []⟩ ∧
      (issueProgram store (record .running) (next false)).line.exchange =
        some ⟨.peek .onForm .atForm 1, 0, 1, 1, []⟩ := by decide +kernel

/-- Slot 1 in PROGRAM mode with an exchange in flight at a step and index. -/
def inProgram (cs : CaseState) (state : LineState) (x : Exchange) (step index : Nat) : State :=
  withSlot { running (record cs) with
    line := lineIn state (some x), seq := ⟨.program, step, index, none, none, false, false⟩ }

/-- The ends of a POKE before the last one of its step, of a PEEK at the last one of the program, of a HAIL, and of an exchange
whose last allowed attempt failed; in RUNNING and in PAUSED. -/
theorem test_witness_program_ends :
    let read : Exchange := ⟨.peek .atForm .atForm 0x100001, 1, 1, 4, []⟩
    let wrote : Exchange := { pokeOut with sent := 5 }
    let a := inProgram .running .send wrote 1 0
    let b := inProgram .paused .reply read 2 1
    let c := inProgram .running .reply (hailOut [0x3A]) 1 1
    let d := inProgram .running .settle { read with attempt := 2 } 2 0
    a.quiet ∧ b.quiet ∧ c.quiet ∧ d.quiet ∧ a.rack.quiesce = .active ∧ a.rack.bench.state = .idle ∧
      (record .running).stay.draining = false ∧ currentStep a.store (record .running) (a.rack.slot 0).seq = some poke ∧
      currentStep b.store (record .paused) (b.rack.slot 0).seq = some peek ∧
      wrote.sent = wrote.probe.chars.length ∧ wrote.probe.chars.getLast? = some 0 ∧
      receive (looksOf 0) = some ⟨0, evenParity 0, true⟩ ∧ peek.mask ≠ 0 ∧
      peek.patternByte 1 = 1 ∧ (caseModel b.store (record .paused)).lookup 0x100001 = some (4, 1) ∧
      (a.rack.slot 0).seq.index + 1 < poke.count ∧ poke.count ≤ (c.rack.slot 0).seq.index + 1 ∧
      (c.rack.slot 0).seq.step < (caseSteps c.store (record .running)).length ∧
      peek.count ≤ (b.rack.slot 0).seq.index + 1 ∧
      (caseSteps b.store (record .paused)).length ≤ (b.rack.slot 0).seq.step ∧
      (caseModel d.store (record .running)).header.retries < 2 := by decide +kernel

/-- The end of a PAUSED draining case's exchange, one under a pending HOLD, one in QUIESCING beside an idle sequencer and
beside a busy one, and one of a draining RUNNING case whose advance is due. -/
theorem test_witness_program_ends_at_a_boundary :
    let wrote : Exchange := { pokeOut with sent := 5 }
    let sl (c : CaseRecord) : Slot := { running c with
      line := lineIn .settle (some { wrote with attempt := 2 }), seq := ⟨.program, 2, 0, none, none, false, false⟩ }
    let paused := withSlot (sl (drained .paused))
    let pending := onLines ⟨.pending 0, true, 0, false, 0⟩ (withSlot (sl (record .running)))
    let quiescing := held .quiescing (withSlot (sl (record .running)))
    let busy := held .quiescing (withSlots (sl (record .running)) (sl { record .running with number := 2 }))
    let draining := withSlot (sl (drained .running))
    paused.quiet ∧ pending.quiet ∧ quiescing.quiet ∧ busy.quiet ∧ draining.quiet ∧
      pending.rack.bench.state = .pending 0 ∧ (drained .paused).stay.draining = true ∧
      (∀ j, j ≠ 0 → quiescing.rack.inUse j = true → quiescing.rack.isIdle j = true) ∧
      (∃ j, j ≠ 0 ∧ busy.rack.inUse j = true ∧ busy.rack.isIdle j = false) ∧
      currentStep draining.store (drained .running) (draining.rack.slot 0).seq = some peek ∧
      (caseModel draining.store (drained .running)).header.retries < 2 ∧
      (caseModel draining.store (drained .running)).nextPosition (drained .running).stay.position = some ⟨1, 2⟩ := by
  decide +kernel

theorem test_witness_length_fault : (0x63 : Byte) ≠ 0 ∧ 250 < (251 : Byte).toNat := by decide +kernel

end Sys2Proof.Tests
end

section
/-! The staging record under MODEL DISCARD (R75, R80). -/

namespace Sys2Proof.Machine

/-! ## The store write and the staging record -/

theorem Store.busy_eq_true {st : Store} : st.busy = true ↔ st.write ≠ none := Option.isSome_iff_ne_none

theorem Store.busy_eq_false {st : Store} : st.busy = false ↔ st.write = none :=
  Option.isSome_eq_false_iff.trans Option.isNone_iff_eq_none

/-- A store whose staging record is given the value it has is the same store. -/
theorem State.withStore_staging_same {s : State} {m : Option Model} (h : s.store.staging = m) :
    s.withStore { s.store with staging := m } = s := by
  subst h; rfl

/-- What the port makes of a taken staging request (R75). -/
@[simp] theorem State.after_staged (s : State) (m : Option Model) :
    State.after (s.completed.staged m) =
      (s.withStore { s.store with staging := m }).answered .done (stagingBody m) := rfl

/-! ## MODEL DISCARD (R80) -/

theorem modelDiscard_busy {s : State} (h : s.store.write ≠ none) (a : NoArgs) :
    modelDiscard a s = refuse s .busy := if_pos (Store.busy_eq_true.mpr h)

theorem modelDiscard_idle {s : State} (h : s.store.write = none) (a : NoArgs) :
    modelDiscard a s = s.staged none := by
  simp [modelDiscard, Store.busy_eq_false.mpr h]

/-- The row of MODEL DISCARD hands a completed frame to its owner. -/
theorem exec_modelDiscard {s : State} (h : s.takesRequests) (a : NoArgs) :
    exec (.modelDiscard (some a)) s = .next (State.after (modelDiscard a s.completed)) :=
  congrArg _ (State.request_taken h .setOnly a modelDiscard)

theorem exec_modelDiscard_busy {s : State} (h : s.takesRequests) (hw : s.store.write ≠ none) (a : NoArgs) :
    exec (.modelDiscard (some a)) s = .next (s.answered .busy []) := by
  rw [exec_modelDiscard h, modelDiscard_busy (s := s.completed) hw, State.after_refuse]

theorem exec_modelDiscard_idle {s : State} (h : s.takesRequests) (hw : s.store.write = none) (a : NoArgs) :
    exec (.modelDiscard (some a)) s =
      .next ((s.withStore { s.store with staging := none }).answered .done (stagingBody none)) := by
  rw [exec_modelDiscard h, modelDiscard_idle (s := s.completed) hw, State.after_staged]

/-- Settles O32, by whether a store write is in progress; a staging record that is NONE already is set to what it is. -/
theorem modelDiscardEmptiesTheStaging : Obligations.ModelDiscardEmptiesTheStaging := by
  intro s h
  refine ⟨fun hw => ?idle, fun hw hn => ?alreadyNone, fun hw => ?busy⟩
  case idle => exact exec_modelDiscard_idle h hw ⟨⟩
  case alreadyNone =>
    have taken := exec_modelDiscard_idle h hw ⟨⟩
    rwa [State.withStore_staging_same hn] at taken
  case busy => exact exec_modelDiscard_busy h hw ⟨⟩

end Sys2Proof.Machine
end

section
/-! The heater output (R107): what it drives in each state, that a tick under a bench grant leaves it, and where CASE LOOK
shows it. -/

namespace Sys2Proof.Machine

/-! ## The heater output and its causes (R107) -/

/-- The duty of the driving holder (R107). -/
def Stay.drivenDuty (y : Stay) : Nat :=
  match y.driving with
  | .a => y.holderA
  | .b => y.holderB

theorem Slot.stay_of_record {sl : Slot} {c : CaseRecord} (h : sl.record = some c) : sl.stay = c.stay := by
  simp [Slot.stay, h]

/-- The heater output drives a holder in RUNNING in an ACTIVE rack. -/
theorem Rack.phase_running {r : Rack} {k : SlotIx} {c : CaseRecord} (hc : (r.slot k).record = some c)
    (run : c.state = .running) (act : r.quiesce = .active) : r.phase k = some c.stay.driving := by
  simp [Rack.phase, hc, run, act]

theorem Rack.phase_empty {r : Rack} {k : SlotIx} (h : (r.slot k).record = none) : r.phase k = none := by
  simp [Rack.phase, h]

theorem Rack.phase_not_running {r : Rack} {k : SlotIx} {c : CaseRecord} (hc : (r.slot k).record = some c)
    (h : c.state ≠ .running) : r.phase k = none := by
  simp [Rack.phase, hc, h]

theorem Rack.phase_not_active {r : Rack} (k : SlotIx) (h : r.quiesce ≠ .active) : r.phase k = none := by
  cases hc : (r.slot k).record with
  | none => exact Rack.phase_empty hc
  | some c => simp [Rack.phase, hc, h]

/-- Without a phase the output is forced to 0 %. -/
theorem Rack.heaterDuty_of_phase_none {r : Rack} {k : SlotIx} (h : r.phase k = none) : r.heaterDuty k = 0 := by
  simp [Rack.heaterDuty, h]

theorem Rack.heaterDuty_running {r : Rack} {k : SlotIx} {c : CaseRecord} (hc : (r.slot k).record = some c)
    (run : c.state = .running) (act : r.quiesce = .active) : r.heaterDuty k = c.stay.drivenDuty := by
  have phase := Rack.phase_running hc run act
  cases hd : c.stay.driving <;> simp [Rack.heaterDuty, Stay.drivenDuty, phase, hd, Slot.stay_of_record hc]

/-- The output depends on the case record and the quiesce state alone; the bench is not among its causes. -/
theorem Rack.heaterDuty_congr {r r' : Rack} {k : SlotIx} (record : (r'.slot k).record = (r.slot k).record)
    (quiesce : r'.quiesce = r.quiesce) : r'.heaterDuty k = r.heaterDuty k := by
  simp only [Rack.heaterDuty, Rack.phase, Slot.stay, record, quiesce]

/-! ## A rack tick (R95) -/

/-- A tick leaves each slot as its own blocks take it. -/
@[simp] theorem Rack.slot_tick (st : Store) (r : Rack) (k : SlotIx) : (r.tick st).slot k = r.tickSlot st k :=
  foldl_slot (fun r' j => r'.setSlot j (r.tickSlot st j)) (fun r' _ _ h => Rack.slot_setSlot_ne r' _ h) k
    (fun _ after => after = r.tickSlot st k) (fun r' => Rack.slot_setSlot_same r' k _) r

@[simp] theorem Rack.quiesce_tick (st : Store) (r : Rack) : (r.tick st).quiesce = r.quiesce :=
  foldl_keeps (fun r' j => r'.setSlot j (r.tickSlot st j)) Rack.quiesce
    (fun r' _ => Rack.quiesce_setSlot r' _ _) allSlots r

/-- A tick leaves the case record of a granted slot as it was: neither the stage timer nor the alternation counter counts
(R95, R106). -/
theorem Rack.record_tickSlot_granted (st : Store) {r : Rack} {k : SlotIx} (h : r.isGranted k = true) :
    (r.tickSlot st k).record = (r.slot k).record := by
  have frozen : r.moving k = false := by simp [Rack.moving, h]
  simp [Rack.tickSlot, frozen]

theorem State.tick_set {s : State} (set : s.port.rackState = .set) : s.tick = s.withRack (s.rack.tick s.store) :=
  if_pos set

theorem State.tick_not_set {s : State} (h : s.port.rackState ≠ .set) : s.tick = s := if_neg h

/-- With no expiry waiting the row of the tick is the tick alone. -/
theorem exec_rackTick {s : State} (h : s.quiet) : exec .rackTick s = .next s.tick :=
  congrArg (fun t => Host.Outcome.next (State.tick t)) (State.settled_of_quiet h)

/-- A tick at a granted slot leaves its case record and the quiesce state as they were, in whatever state the rack is. -/
theorem exec_rackTick_granted {s : State} {k : SlotIx} (h : s.quiet) (granted : s.rack.isGranted k = true) :
    ∃ r : Rack, exec .rackTick s = .next (s.withRack r) ∧ (r.slot k).record = (s.rack.slot k).record ∧
      r.quiesce = s.rack.quiesce := by
  rw [exec_rackTick h]
  by_cases set : s.port.rackState = .set
  · refine ⟨s.rack.tick s.store, by rw [State.tick_set set], ?_, Rack.quiesce_tick _ _⟩
    rw [Rack.slot_tick, Rack.record_tickSlot_granted s.store granted]
  · exact ⟨s.rack, by rw [State.tick_not_set set]; rfl, rfl, rfl⟩

/-! ## The heater duty in CASE LOOK (R30, R233) -/

@[simp] theorem length_bytes (n v : Nat) : (bytes n v).length = n := by
  induction n with
  | zero => rfl
  | succ n ih => simp [bytes, ih]

@[simp] theorem length_halfBytes (h : Half) : (halfBytes h).length = 2 := length_bytes 2 h.toNat

@[simp] theorem length_padded (width : Nat) (s : List Byte) : (padded width s).length = width := by
  simp [padded]

/-- The fields before the heater duty take bytes 0 to 49, with a record and without one. -/
theorem lookBody_heaterDuty (r : Rack) (k : SlotIx) : (lookBody r k)[50]? = some (byte (r.heaterDuty k)) := by
  cases hc : (r.slot k).record with
  | none => simp [lookBody, hc]
  | some c => simp [lookBody, hc]

/-- Settles O39: the output is a view of the case record and the quiesce state, and a tick leaves both at a granted slot. -/
theorem theHeaterDrivesTheDrivingHolder : Obligations.TheHeaterDrivesTheDrivingHolder := by
  refine ⟨fun s k quiet granted => ?underGrant, fun r k => ⟨fun c hc run act => ?running, fun c hc other => ?otherState,
    fun held => ?heldRack, fun empty => ?emptySlot, lookBody_heaterDuty r k⟩⟩
  case underGrant =>
    obtain ⟨r, ticked, record, quiesce⟩ := exec_rackTick_granted quiet granted
    have stay : (r.slot k).stay = (s.rack.slot k).stay := by simp only [Slot.stay, record]
    exact ⟨r, ticked, Rack.heaterDuty_congr record quiesce, by rw [stay], by rw [stay]⟩
  case running => exact Rack.heaterDuty_running hc run act
  case otherState => exact Rack.heaterDuty_of_phase_none (Rack.phase_not_running hc other)
  case heldRack => exact Rack.heaterDuty_of_phase_none (Rack.phase_not_active k held)
  case emptySlot => exact Rack.heaterDuty_of_phase_none (Rack.phase_empty empty)

end Sys2Proof.Machine
end

section
/-! What a command can do to the rack, said once: a relation of the few kinds of change that every operation of the rack is
made of, and the invariants of the rack that each kind keeps. -/

namespace Sys2Proof.Machine

/-! ## Kinds of change -/

/-- An exchange is in flight exactly outside IDLE and PASSED (R153). -/
def Line.sound (l : Line) : Prop := l.exchange = none ↔ (l.state = .idle ∨ l.state = .passed)

/-- A change of a sound line that leaves it sound and neither enters nor leaves PASSED. -/
def Line.follows (l l' : Line) : Prop := l.sound → l'.sound ∧ (l'.state = .passed ↔ l.state = .passed)

theorem Line.follows_refl (l : Line) : l.follows l := fun h => ⟨h, Iff.rfl⟩

/-- What of the rack a change of slot `k` leaves. -/
structure Rack.Near (k : SlotIx) (r r' : Rack) : Prop where
  wide : r'.wide = r.wide
  budget : r'.budget = r.budget
  bench : r'.bench.state = r.bench.state
  slot : ∀ j, j ≠ k → r'.slot j = r.slot j

/-- A change of a slot that keeps its rail safe, takes no units, accuses nobody and keeps its line sound. -/
structure Slot.Keeps (a b : Slot) : Prop where
  rail : a.railSafe → b.railSafe
  units : b.units = a.units ∨ b.units = 0
  pool : b.suspects = a.suspects ∨ b.suspects = []
  line : a.line.follows b.line

/-- One change of the rack. `U` holds of the slots that an event may reach from outside. -/
inductive Rack.Move (U : SlotIx → Prop) (r : Rack) : Rack → Prop
  /-- the quiesce state, the notice set, the levels of the bench lines -/
  | shared (q : QuiesceState) (b : Bench) (n : NoticeSet) (bench : b.state = r.bench.state) :
      Move U r { r with quiesce := q, bench := b, notices := n }
  /-- a slot changes; a case that leaves its run holds no units, and one that may not queue has no entry -/
  | slot (k : SlotIx) (r' : Rack) (near : Rack.Near k r r') (queue : r'.queue = r.queue)
      (keeps : Slot.Keeps (r.slot k) (r'.slot k))
      (run : (r'.slot k).units ≠ 0 → (r.slot k).inRun = true → (r'.slot k).inRun = true)
      (entry : r.queued k = true → (r.slot k).mayQueue = true → (r'.slot k).mayQueue = true)
      (live : U k ∨ r.slot k ≠ Slot.reset ∨ r'.slot k = r.slot k) : Move U r r'
  /-- an evidence item (R39) -/
  | items (r' : Rack) (evidence : r.evidence r')
      (empty : ∀ j, (r.slot j).record = none → r'.slot j = r.slot j) (pool : r.poolSafe → r'.poolSafe) : Move U r r'
  /-- a grant to the head of the queue, and what the Case Table makes of it (R123, R124) -/
  | grant (e : QueueEntry) (rest : List QueueEntry) (r' : Rack) (head : r.queue = e :: rest)
      (fits : e.need ≤ r.freeUnits) (near : Rack.Near e.slot r r') (queue : r'.queue = rest)
      (keeps : Slot.Keeps { r.slot e.slot with units := e.need } (r'.slot e.slot))
      (run : (r.slot e.slot).inRun = true → (r'.slot e.slot).inRun = true) : Move U r r'
  /-- the queue loses or reorders entries, and gains no slot (R127, R128) -/
  | queue (q : List QueueEntry) (slots : ∀ e ∈ q, ∃ e' ∈ r.queue, e'.slot = e.slot)
      (nodup : (r.queue.map (·.slot)).Nodup → (q.map (·.slot)).Nodup)
      (order : r.queue.Pairwise (fun x y => x.priority = .normal → y.priority = .normal) →
        q.Pairwise fun x y => x.priority = .normal → y.priority = .normal) : Move U r { r with queue := q }
  /-- a slot is granted to the bench (R209) -/
  | benchGrant (k : SlotIx) (free : ∀ j, r.bench.state ≠ .granted j)
      (exchange : (r.slot k).line.exchange = none) (live : U k ∨ r.isPending k = true) : Move U r (r.benchGrant k)
  /-- a grant of the bench ends (R211) -/
  | benchEnd (k : SlotIx) (granted : r.bench.state = .granted k) : Move U r (r.benchIdle.modLine k Line.release)
  /-- a HOLD becomes pending or is withdrawn (R205, R207) -/
  | hold (b : BenchState) (free : ∀ j, r.bench.state ≠ .granted j) (now : ∀ j, b ≠ .granted j)
      (live : ∀ j, b = .pending j → U j) : Move U r { r with bench := { r.bench with state := b } }

/-- Changes one after the other. -/
abbrev Rack.Moves (U : SlotIx → Prop) : Rack → Rack → Prop := Relation.ReflTransGen (Rack.Move U)

/-- What an operation of the rack is made of: changes, requests for units (R122) and a new budget (R229). Between the request
and the state that its case then enters, units and entry of the case do not fit its state. -/
inductive Rack.Act (U : SlotIx → Prop) (r : Rack) : Rack → Prop
  | move (r' : Rack) (h : Rack.Move U r r') : Act U r r'
  | request (k : SlotIx) (need : Nat) (mid r' : Rack) (opened : (r.slot k).record.isSome = true)
      (unqueued : (r.slot k).mayQueue = false) (none : (r.slot k).units = 0 ∨ (r.slot k).inRun = false)
      (pass : Rack.Moves U (r.askUnits k need) mid) (near : Rack.Near k mid r') (queue : r'.queue = mid.queue)
      (keeps : Slot.Keeps (mid.slot k) (r'.slot k)) (run : (r'.slot k).inRun = true)
      (entry : mid.queued k = true → (r'.slot k).mayQueue = true) : Act U r r'
  | budget (n : Nat) (h : (∀ k, (r.slot k).inRun = false) ∨ r.budget = some n) : Act U r { r with budget := some n }

abbrev Rack.Acts (U : SlotIx → Prop) : Rack → Rack → Prop := Relation.ReflTransGen (Rack.Act U)

/-- A property that each change keeps is kept by changes one after the other. -/
theorem keeps_of_reflTransGen {α : Type} {R : α → α → Prop} {I : α → Prop} (step : ∀ a b, R a b → I a → I b) {a b : α}
    (h : Relation.ReflTransGen R a b) : I a → I b := by
  induction h with
  | refl => exact id
  | tail _ last ih => exact fun ha => step _ _ last (ih ha)

theorem Rack.Moves.acts {U : SlotIx → Prop} {r r' : Rack} (h : Rack.Moves U r r') : Rack.Acts U r r' := by
  induction h with
  | refl => exact .refl
  | tail _ last ih => exact ih.tail (.move _ last)

/-- The slots that an event may reach: those in use, those that are not as after reset, and the one the bench names. -/
def Rack.reachable (r : Rack) (k : SlotIx) : Prop :=
  r.inUse k = true ∨ r.slot k ≠ Slot.reset ∨ r.isPending k = true ∨ r.isGranted k = true

/-! ## Evidence keeps the state of a case -/

theorem CaseRecord.evidence_state {c c' : CaseRecord} (h : c.evidence c') :
    c'.state = c.state ∨ ∃ e v v', c.state = .done e v ∧ c'.state = .done e v' := by
  obtain ⟨-, same, done⟩ := h
  cases hs : c.state with
  | done e v => obtain ⟨v', hv⟩ := done e v hs; exact .inr ⟨e, v, v', rfl, hv⟩
  | _ => exact .inl (by rw [same (by simp [hs]), hs])

/-- Two slots whose cases are in one state, but for the verdict. -/
def Slot.sameState (a b : Slot) : Prop :=
  b.caseState = a.caseState ∨ ∃ e v v', a.caseState = some (.done e v) ∧ b.caseState = some (.done e v')

theorem Slot.evidence_sameState {a b : Slot} (h : a.evidence b) : a.sameState b := by
  obtain ⟨-, empty, full⟩ := h
  cases ha : a.record with
  | none => exact .inl (by simp [Slot.caseState, ha, empty ha])
  | some c =>
    obtain ⟨c', hc', hcc⟩ := full c ha
    rcases CaseRecord.evidence_state hcc with h | ⟨e, v, v', h, h'⟩
    · exact .inl (by simp [Slot.caseState, ha, hc', h])
    · exact .inr ⟨e, v, v', by simp [Slot.caseState, ha, h], by simp [Slot.caseState, hc', h']⟩

theorem Slot.inRun_eq (a : Slot) : a.inRun = (a.caseState.map CaseState.inRun).getD false := by
  unfold Slot.inRun Slot.caseState
  cases a.record <;> rfl

theorem Slot.sameState_inRun {a b : Slot} (h : a.sameState b) : b.inRun = a.inRun := by
  rw [Slot.inRun_eq, Slot.inRun_eq]
  rcases h with h | ⟨e, v, v', h, h'⟩
  · rw [h]
  · rw [h, h']; rfl

theorem Slot.sameState_takesTrip {a b : Slot} (h : a.sameState b) : b.takesTrip = a.takesTrip := by
  unfold Slot.takesTrip
  rcases h with h | ⟨e, v, v', h, h'⟩
  · rw [h]
  · rw [h, h']

theorem Slot.sameState_mayQueue {a b : Slot} (h : a.sameState b) : b.mayQueue = a.mayQueue := by
  unfold Slot.mayQueue
  rcases h with h | ⟨e, v, v', h, h'⟩
  · rw [h]
  · rw [h, h']; rfl

/-- What a case of these states can queue in is a run. -/
theorem Slot.inRun_of_mayQueue {a : Slot} (h : a.mayQueue = true) : a.inRun = true := by
  rw [Slot.inRun_eq]
  simp only [Slot.mayQueue, Bool.or_eq_true, beq_iff_eq] at h
  rcases h with (h | h) | h <;> rw [h] <;> rfl

theorem Slot.inRun_of_takesTrip {a : Slot} (h : a.takesTrip = true) : a.inRun = true := by
  rw [Slot.inRun_eq]
  unfold Slot.takesTrip at h
  split at h <;> simp_all [CaseState.inRun]

/-! ## Sums over the slots -/

/-- A sum over the slots in which one summand changes. -/
theorem sum_change_one {f g : SlotIx → Nat} {k : SlotIx} (same : ∀ j, j ≠ k → g j = f j) :
    (allSlots.map g).sum + f k = (allSlots.map f).sum + g k := by
  suffices h : ∀ l : List SlotIx, l.Nodup →
      (l.map g).sum + (if k ∈ l then f k else 0) = (l.map f).sum + (if k ∈ l then g k else 0) by
    simpa [mem_allSlots k] using h allSlots nodup_allSlots
  intro l
  induction l with
  | nil => simp
  | cons a l ih =>
    intro nd
    obtain ⟨ha, nd⟩ := List.nodup_cons.mp nd
    have := ih nd
    by_cases e : k = a
    · subst e
      simp only [ha, if_false, List.map_cons, List.sum_cons, List.mem_cons, true_or, if_true] at this ⊢
      omega
    · have ga : g a = f a := same a (Ne.symm e)
      simp only [List.map_cons, List.sum_cons, List.mem_cons, e, false_or, ga]
      omega

theorem sum_congr {f g : SlotIx → Nat} (same : ∀ j, g j = f j) : (allSlots.map g).sum = (allSlots.map f).sum := by
  rw [funext same]

/-- The held total after a change of one slot. -/
theorem Rack.heldTotal_near {k : SlotIx} {r r' : Rack} (near : Rack.Near k r r') :
    r'.heldTotal + (r.slot k).units = r.heldTotal + (r'.slot k).units :=
  sum_change_one (f := fun j => (r.slot j).units) (g := fun j => (r'.slot j).units) fun j hj => by rw [near.slot j hj]

theorem Rack.usedEntries_near {k : SlotIx} {r r' : Rack} (near : Rack.Near k r r') :
    r'.usedEntries + (r.slot k).suspectCount = r.usedEntries + (r'.slot k).suspectCount :=
  sum_change_one (f := fun j => (r.slot j).suspectCount) (g := fun j => (r'.slot j).suspectCount) fun j hj => by
    rw [near.slot j hj]

theorem Rack.near_same (k : SlotIx) {r r' : Rack} (near : Rack.Near k r r') (same : r'.slot k = r.slot k) (j : SlotIx) :
    r'.slot j = r.slot j := by
  by_cases h : j = k
  · rw [h, same]
  · exact near.slot j h

theorem Slot.suspectCount_eq (a : Slot) : a.suspectCount = a.suspects.length := by
  unfold Slot.suspectCount Slot.suspects
  cases a.record <;> rfl

theorem Rack.isGranted_eq {r r' : Rack} (h : r'.bench.state = r.bench.state) (k : SlotIx) :
    r'.isGranted k = r.isGranted k := by rw [Rack.isGranted, h, Rack.isGranted]

theorem Rack.isPending_eq {r r' : Rack} (h : r'.bench.state = r.bench.state) (k : SlotIx) :
    r'.isPending k = r.isPending k := by rw [Rack.isPending, h, Rack.isPending]

theorem Rack.isGranted_iff {r : Rack} {k : SlotIx} : r.isGranted k = true ↔ r.bench.state = .granted k := by
  unfold Rack.isGranted
  cases r.bench.state <;> simp

theorem Rack.isPending_iff {r : Rack} {k : SlotIx} : r.isPending k = true ↔ r.bench.state = .pending k := by
  unfold Rack.isPending
  cases r.bench.state <;> simp

theorem Rack.near_setUnits (r : Rack) (k : SlotIx) (n : Nat) : Rack.Near k r (r.setUnits k n) :=
  ⟨rfl, rfl, rfl, fun _ hj => by simp [hj]⟩

theorem Rack.near_benchGrant (r : Rack) (k : SlotIx) :
    (r.benchGrant k).wide = r.wide ∧ (r.benchGrant k).budget = r.budget ∧ (r.benchGrant k).queue = r.queue ∧
      (r.benchGrant k).bench.state = .granted k := ⟨rfl, rfl, rfl, rfl⟩

/-! ## Width (R1) -/

/-- `Rack.widthSafe`, with every slot that may be reached in use. -/
def Rack.widthSafeOn (U : SlotIx → Prop) (r : Rack) : Prop := r.widthSafe ∧ (r.wide = false → ∀ k, U k → k.val < 8)

/-- A change of slot `k` keeps the width safe when it cannot be one of the slots not in use. -/
theorem Rack.widthSafe_of_near {k : SlotIx} {r r' : Rack} (near : Rack.Near k r r')
    (queue : ∀ e ∈ r'.queue, ∃ e' ∈ r.queue, e'.slot = e.slot)
    (mine : r.wide = false → k.val < 8 ∨ r.slot k ≠ Slot.reset ∨ r'.slot k = r.slot k)
    (h : r.widthSafe) : r'.widthSafe := by
  intro narrow
  have narrow' : r.wide = false := near.wide ▸ narrow
  obtain ⟨slots, queued, bench⟩ := h narrow'
  refine ⟨fun j hj => ?_, fun e he => ?_, fun j hj => bench j (near.bench ▸ hj)⟩
  · by_cases e : j = k
    · subst e
      rcases mine narrow' with u | d | s
      · omega
      · exact absurd (slots j hj) d
      · rw [s, slots j hj]
    · rw [near.slot j e, slots j hj]
  · obtain ⟨e', he', same⟩ := queue e he
    exact same ▸ queued e' he'

theorem Rack.Move.keeps_widthSafe {U : SlotIx → Prop} {r r' : Rack} (h : Rack.Move U r r') :
    r.widthSafeOn U → r'.widthSafeOn U := by
  rintro ⟨safe, small⟩
  cases h with
  | shared q b n bench =>
    exact ⟨fun narrow => by simpa only [bench, Rack.slot_sameSlots] using safe narrow, small⟩
  | slot k _ near queue _ _ _ live =>
    exact ⟨Rack.widthSafe_of_near near (fun e he => ⟨e, queue ▸ he, rfl⟩) (fun n => live.imp_left (small n k)) safe,
      fun n => small (near.wide ▸ n)⟩
  | items _ ev empty _ =>
    obtain ⟨wide, -, queue, -, bench, -, -⟩ := ev
    refine ⟨fun narrow => ?_, fun n => small (wide ▸ n)⟩
    obtain ⟨slots, queued, benched⟩ := safe (wide ▸ narrow)
    refine ⟨fun j hj => ?_, queue ▸ queued, bench ▸ benched⟩
    rw [empty j (by rw [slots j hj]; rfl), slots j hj]
  | grant e rest _ head _ near queue _ _ =>
    refine ⟨Rack.widthSafe_of_near near (fun e' he => ⟨e', by rw [head]; exact .tail _ (queue ▸ he), rfl⟩)
      (fun n => .inl ((safe n).2.1 e (by simp [head]))) safe, fun n => small (near.wide ▸ n)⟩
  | queue q slots _ _ =>
    refine ⟨fun narrow => ?_, small⟩
    obtain ⟨fresh, queued, bench⟩ := safe narrow
    exact ⟨fresh, fun e he => by obtain ⟨e', he', same⟩ := slots e he; exact same ▸ queued e' he', bench⟩
  | benchGrant k _ _ live =>
    refine ⟨fun narrow => ?_, small⟩
    obtain ⟨fresh, queued, bench⟩ := safe narrow
    have inUse : k.val < 8 := live.elim (small narrow k) fun p => bench k (.inl (Rack.isPending_iff.mp p))
    refine ⟨fun j hj => ?_, queued, fun j hj => ?_⟩
    · rw [Rack.slot_benchGrant_ne r (by rintro rfl; omega), fresh j hj]
    · have : k = j := by simpa [Rack.benchGrant] using hj
      exact this ▸ inUse
  | benchEnd k granted =>
    refine ⟨fun narrow => ?_, small⟩
    obtain ⟨fresh, queued, bench⟩ := safe narrow
    have inUse : k.val < 8 := bench k (.inr granted)
    refine ⟨fun j hj => ?_, queued, fun j hj => by simp at hj⟩
    rw [Rack.slot_modLine_ne _ _ (by rintro rfl; omega), Rack.slot_benchIdle, fresh j hj]
  | hold b _ now live =>
    refine ⟨fun narrow => ?_, small⟩
    obtain ⟨fresh, queued, -⟩ := safe narrow
    refine ⟨fresh, queued, fun j hj => ?_⟩
    rcases hj with p | g
    · exact small narrow j (live j p)
    · exact absurd g (now j)

/-- What a request for units leaves beside the queue and the units of its slot. -/
theorem Rack.askUnits_spec (r : Rack) (k : SlotIx) (need : Nat) :
    Rack.Near k r (r.askUnits k need) ∧ (∃ n, (r.askUnits k need).slot k = { r.slot k with units := n }) := by
  unfold Rack.askUnits
  split
  · exact ⟨Rack.near_setUnits .., 0, by simp⟩
  · split
    · exact ⟨Rack.near_setUnits .., need, by simp⟩
    · split
      · exact ⟨⟨rfl, rfl, rfl, fun _ _ => rfl⟩, (r.slot k).units, rfl⟩
      · exact ⟨⟨rfl, rfl, rfl, fun _ _ => rfl⟩, (r.slot k).units, rfl⟩

theorem mem_joinQueue {e x : QueueEntry} {q : List QueueEntry} (h : x ∈ joinQueue e q) : x = e ∨ x ∈ q := by
  unfold joinQueue at h
  split at h <;> simp at h <;> tauto

theorem Rack.mem_queue_askUnits {r : Rack} {k : SlotIx} {need : Nat} {e : QueueEntry}
    (h : e ∈ (r.askUnits k need).queue) : e.slot = k ∨ e ∈ r.queue := by
  unfold Rack.askUnits at h
  split at h
  · exact .inr h
  · split at h
    · exact .inr h
    · split at h
      · exact .inr h
      · exact (mem_joinQueue h).imp_left fun same => by rw [same]

theorem Rack.Move.wide {U : SlotIx → Prop} {r r' : Rack} (h : Rack.Move U r r') : r'.wide = r.wide := by
  cases h with
  | slot _ _ near => exact near.wide
  | items _ ev => exact ev.1
  | grant _ _ _ _ _ near => exact near.wide
  | _ => rfl

theorem Rack.Moves.wide {U : SlotIx → Prop} {r r' : Rack} (h : Rack.Moves U r r') : r'.wide = r.wide :=
  keeps_of_reflTransGen (I := fun x => x.wide = r.wide) (fun _ _ m e => m.wide.trans e) h rfl

theorem Rack.Moves.keeps_widthSafe {U : SlotIx → Prop} {r r' : Rack} (h : Rack.Moves U r r') :
    r.widthSafeOn U → r'.widthSafeOn U :=
  keeps_of_reflTransGen (I := Rack.widthSafeOn U) (fun _ _ m => m.keeps_widthSafe) h

theorem Rack.Act.keeps_widthSafe {U : SlotIx → Prop} {r r' : Rack} (h : Rack.Act U r r') :
    r.widthSafeOn U → r'.widthSafeOn U := by
  rintro ⟨safe, small⟩
  cases h with
  | move _ m => exact m.keeps_widthSafe ⟨safe, small⟩
  | request k need mid _ opened _ _ pass near queue =>
    have inUse : r.wide = false → k.val < 8 := fun n => by
      by_contra far
      rw [(safe n).1 k (by omega)] at opened
      simp [Slot.reset] at opened
    obtain ⟨asked, -⟩ := r.askUnits_spec k need
    have safe' : (r.askUnits k need).widthSafe := by
      intro narrow
      obtain ⟨fresh, queued, bench⟩ := safe (asked.wide ▸ narrow)
      refine ⟨fun j hj => ?_, fun e he => ?_, fun j hj => bench j (asked.bench ▸ hj)⟩
      · rw [asked.slot j (by rintro rfl; have := inUse (asked.wide ▸ narrow); omega), fresh j hj]
      · rcases Rack.mem_queue_askUnits he with rfl | he
        · exact inUse (asked.wide ▸ narrow)
        · exact queued e he
    obtain ⟨midSafe, midSmall⟩ := pass.keeps_widthSafe (U := U) ⟨safe', fun n => small (asked.wide ▸ n)⟩
    exact ⟨Rack.widthSafe_of_near near (fun e he => ⟨e, queue ▸ he, rfl⟩)
      (fun n => .inl (inUse (by rw [← asked.wide, ← pass.wide, n]))) midSafe, fun n => midSmall (near.wide ▸ n)⟩
  | budget n _ => exact ⟨safe, small⟩

theorem Rack.Acts.keeps_widthSafe {U : SlotIx → Prop} {r r' : Rack} (h : Rack.Acts U r r') :
    r.widthSafeOn U → r'.widthSafeOn U :=
  keeps_of_reflTransGen (I := Rack.widthSafeOn U) (fun _ _ a => a.keeps_widthSafe) h

/-- What an event reaches in a rack of eight slots is in use. -/
theorem Rack.widthSafeOn_reachable {r : Rack} (h : r.widthSafe) : r.widthSafeOn r.reachable := by
  refine ⟨h, fun narrow k reach => ?_⟩
  obtain ⟨fresh, -, bench⟩ := h narrow
  rcases reach with use | slot | pending | granted
  · simpa [Rack.inUse, narrow] using use
  · by_contra far
    exact slot (fresh k (by omega))
  · exact bench k (.inl (Rack.isPending_iff.mp pending))
  · exact bench k (.inr (Rack.isGranted_iff.mp granted))

/-! ## Rails (R24, R136) -/

theorem Slot.railSafe_of_sameState {a b : Slot} (state : a.sameState b) (latch : b.latchClosed = a.latchClosed)
    (rail : b.rail = a.rail) (h : a.railSafe) : b.railSafe := by
  rw [Slot.railSafe, Slot.sameState_takesTrip state, Slot.sameState_inRun state, latch, rail]
  exact h

theorem Rack.railSafe_of_near {k : SlotIx} {r r' : Rack} (near : Rack.Near k r r')
    (own : (r.slot k).railSafe → (r'.slot k).railSafe) (h : r.railSafe) : r'.railSafe := by
  intro j
  by_cases e : j = k
  · subst e; exact own (h j)
  · rw [near.slot j e]; exact h j

theorem Rack.Move.keeps_railSafe {U : SlotIx → Prop} {r r' : Rack} (h : Rack.Move U r r') : r.railSafe → r'.railSafe := by
  intro safe
  cases h with
  | shared | queue | hold => exact safe
  | slot k _ near _ keeps => exact Rack.railSafe_of_near near keeps.rail safe
  | items _ ev =>
    intro j
    have own := ev.2.2.2.2.2.2 j
    exact Slot.railSafe_of_sameState (Slot.evidence_sameState own) (by rw [own.1]) (by rw [own.1]) (safe j)
  | grant e _ _ _ _ near _ keeps => exact Rack.railSafe_of_near near (fun own => keeps.rail own) safe
  | benchGrant k =>
    intro j
    by_cases e : j = k
    · subst e; rw [Rack.slot_benchGrant_same]; exact safe j
    · rw [Rack.slot_benchGrant_ne r e]; exact safe j
  | benchEnd k =>
    intro j
    by_cases e : j = k
    · subst e; rw [Rack.slot_modLine_same]; exact safe j
    · rw [Rack.slot_modLine_ne _ _ e]; exact safe j

theorem Rack.Act.keeps_railSafe {U : SlotIx → Prop} {r r' : Rack} (h : Rack.Act U r r') : r.railSafe → r'.railSafe := by
  intro safe
  cases h with
  | move _ m => exact m.keeps_railSafe safe
  | request k need mid _ _ _ _ pass near _ keeps =>
    obtain ⟨asked, n, own⟩ := r.askUnits_spec k need
    have safe' := Rack.railSafe_of_near asked (by rw [own]; exact id) safe
    have midSafe := keeps_of_reflTransGen (I := Rack.railSafe) (fun _ _ m => m.keeps_railSafe) pass safe'
    exact Rack.railSafe_of_near near keeps.rail midSafe
  | budget => exact safe

theorem Rack.Acts.keeps_railSafe {U : SlotIx → Prop} {r r' : Rack} (h : Rack.Acts U r r') : r.railSafe → r'.railSafe :=
  keeps_of_reflTransGen (I := Rack.railSafe) (fun _ _ a => a.keeps_railSafe) h

/-! ## Lines (R153, R169) -/

theorem Rack.lineSafe_iff {r : Rack} : r.lineSafe ↔
    ∀ k, (r.slot k).line.sound ∧ ((r.slot k).line.state = .passed ↔ r.isGranted k = true) := Iff.rfl

theorem Rack.lineSafe_of_near {k : SlotIx} {r r' : Rack} (near : Rack.Near k r r')
    (own : (r.slot k).line.follows (r'.slot k).line) (h : r.lineSafe) : r'.lineSafe := by
  intro j
  rw [Rack.isGranted_eq near.bench]
  by_cases e : j = k
  · subst e
    obtain ⟨sound, passed⟩ := own (h j).1
    exact ⟨sound, passed.trans (h j).2⟩
  · rw [near.slot j e]; exact h j

theorem Line.sound_release {l : Line} (h : l.sound) : l.release.sound := by
  obtain ⟨state, exchange, pointer, sure, last⟩ := l
  cases state <;> simpa [Line.sound, Line.release] using h

theorem Line.state_release (l : Line) : l.release.state ≠ .passed := by
  obtain ⟨state, exchange, pointer, sure, last⟩ := l
  cases state <;> simp [Line.release]

theorem Rack.Move.keeps_lineSafe {U : SlotIx → Prop} {r r' : Rack} (h : Rack.Move U r r') : r.lineSafe → r'.lineSafe := by
  intro safe
  cases h with
  | shared q b n bench => exact fun j => by rw [Rack.isGranted_eq (r' := { r with quiesce := q, bench := b, notices := n }) bench]; exact safe j
  | queue => exact safe
  | slot k _ near _ keeps => exact Rack.lineSafe_of_near near keeps.line safe
  | items _ ev =>
    intro j
    rw [Rack.isGranted_eq (congrArg Bench.state ev.2.2.2.2.1), (ev.2.2.2.2.2.2 j).1]
    exact safe j
  | grant e _ _ _ _ near _ keeps => exact Rack.lineSafe_of_near near keeps.line safe
  | benchGrant k free exchange =>
    intro j
    have was : r.isGranted j = false := by
      rw [Bool.eq_false_iff]; exact fun g => free j (Rack.isGranted_iff.mp g)
    have now : (r.benchGrant k).isGranted j = (k == j) := rfl
    rw [now]
    by_cases e : j = k
    · subst e; simp [exchange]
    · rw [Rack.slot_benchGrant_ne r e]
      refine ⟨(safe j).1, ?_⟩
      rw [(safe j).2, was]
      simp [Ne.symm e]
  | benchEnd k granted =>
    intro j
    have now : (r.benchIdle.modLine k Line.release).isGranted j = false := rfl
    rw [now]
    by_cases e : j = k
    · subst e
      rw [Rack.slot_modLine_same]
      exact ⟨Line.sound_release (safe j).1, iff_of_false (Line.state_release _) (by simp)⟩
    · rw [Rack.slot_modLine_ne _ _ e, Rack.slot_benchIdle]
      refine ⟨(safe j).1, ?_⟩
      rw [(safe j).2, Rack.isGranted_iff, granted]
      simp [Ne.symm e]
  | hold b free now =>
    intro j
    refine ⟨(safe j).1, (safe j).2.trans ?_⟩
    rw [Rack.isGranted_iff, Rack.isGranted_iff]
    exact iff_of_false (free j) (now j)

theorem Rack.Act.keeps_lineSafe {U : SlotIx → Prop} {r r' : Rack} (h : Rack.Act U r r') : r.lineSafe → r'.lineSafe := by
  intro safe
  cases h with
  | move _ m => exact m.keeps_lineSafe safe
  | request k need mid _ _ _ _ pass near _ keeps =>
    obtain ⟨asked, n, own⟩ := r.askUnits_spec k need
    have safe' := Rack.lineSafe_of_near asked (by rw [own]; exact Line.follows_refl _) safe
    have midSafe := keeps_of_reflTransGen (I := Rack.lineSafe) (fun _ _ m => m.keeps_lineSafe) pass safe'
    exact Rack.lineSafe_of_near near keeps.line midSafe
  | budget => exact safe

theorem Rack.Acts.keeps_lineSafe {U : SlotIx → Prop} {r r' : Rack} (h : Rack.Acts U r r') : r.lineSafe → r'.lineSafe :=
  keeps_of_reflTransGen (I := Rack.lineSafe) (fun _ _ a => a.keeps_lineSafe) h

/-! ## The pool (R34, R36, R38) -/

theorem Rack.poolSafe_of_near {k : SlotIx} {r r' : Rack} (near : Rack.Near k r r')
    (own : (r'.slot k).suspects = (r.slot k).suspects ∨ (r'.slot k).suspects = []) (h : r.poolSafe) : r'.poolSafe := by
  obtain ⟨size, lists⟩ := h
  have total := Rack.usedEntries_near near
  rw [Slot.suspectCount_eq, Slot.suspectCount_eq] at total
  refine ⟨?_, fun j => ?_⟩
  · rcases own with e | e <;> rw [e] at total <;> simp at total <;> omega
  · by_cases e : j = k
    · subst e
      rcases own with e | e
      · rw [e]; exact lists j
      · rw [e]; simp
    · rw [near.slot j e]; exact lists j

theorem Rack.poolSafe_of_lists {r r' : Rack} (same : ∀ j, (r'.slot j).suspects = (r.slot j).suspects) (h : r.poolSafe) :
    r'.poolSafe := by
  refine ⟨?_, fun j => by rw [same j]; exact h.2 j⟩
  have : r'.usedEntries = r.usedEntries := sum_congr fun j => by rw [Slot.suspectCount_eq, Slot.suspectCount_eq, same j]
  rw [this]; exact h.1

theorem Rack.Move.keeps_poolSafe {U : SlotIx → Prop} {r r' : Rack} (h : Rack.Move U r r') : r.poolSafe → r'.poolSafe := by
  intro safe
  cases h with
  | shared | queue | hold => exact safe
  | slot k _ near _ keeps => exact Rack.poolSafe_of_near near keeps.pool safe
  | items _ _ _ pool => exact pool safe
  | grant e _ _ _ _ near _ keeps => exact Rack.poolSafe_of_near near keeps.pool safe
  | benchGrant k =>
    refine Rack.poolSafe_of_lists (fun j => ?_) safe
    by_cases e : j = k
    · subst e; rw [Rack.slot_benchGrant_same]; rfl
    · rw [Rack.slot_benchGrant_ne r e]
  | benchEnd k =>
    refine Rack.poolSafe_of_lists (fun j => ?_) safe
    by_cases e : j = k
    · subst e; rw [Rack.slot_modLine_same]; rfl
    · rw [Rack.slot_modLine_ne _ _ e, Rack.slot_benchIdle]

theorem Rack.Act.keeps_poolSafe {U : SlotIx → Prop} {r r' : Rack} (h : Rack.Act U r r') : r.poolSafe → r'.poolSafe := by
  intro safe
  cases h with
  | move _ m => exact m.keeps_poolSafe safe
  | request k need mid _ _ _ _ pass near _ keeps =>
    obtain ⟨asked, n, own⟩ := r.askUnits_spec k need
    have safe' := Rack.poolSafe_of_near asked (.inl (by rw [own]; rfl)) safe
    have midSafe := keeps_of_reflTransGen (I := Rack.poolSafe) (fun _ _ m => m.keeps_poolSafe) pass safe'
    exact Rack.poolSafe_of_near near keeps.pool midSafe
  | budget => exact safe

theorem Rack.Acts.keeps_poolSafe {U : SlotIx → Prop} {r r' : Rack} (h : Rack.Acts U r r') : r.poolSafe → r'.poolSafe :=
  keeps_of_reflTransGen (I := Rack.poolSafe) (fun _ _ a => a.keeps_poolSafe) h

/-! ## The budget (R120, R121, R126) -/

/-- Every RUSH entry ahead of every NORMAL one (R121). -/
abbrev rushFirst (q : List QueueEntry) : Prop := q.Pairwise fun x y => x.priority = .normal → y.priority = .normal

/-- `Rack.budgetSafe`, where the state of the slot `x` may not fit its units and its entry. -/
def Rack.budgetSafeBut (x : Option SlotIx) (r : Rack) : Prop :=
  r.heldTotal ≤ r.budgetUnits ∧ (∀ k, x ≠ some k → (r.slot k).units ≠ 0 → (r.slot k).inRun = true) ∧
  (∀ e ∈ r.queue, (r.slot e.slot).units = 0 ∧ (x ≠ some e.slot → (r.slot e.slot).mayQueue = true)) ∧
  (r.queue.map (·.slot)).Nodup ∧ rushFirst r.queue

theorem Rack.budgetSafeBut_none {r : Rack} : r.budgetSafeBut none ↔ r.budgetSafe := by
  simp [Rack.budgetSafeBut, Rack.budgetSafe]

theorem Rack.budgetSafeBut_weaken {r : Rack} (k : SlotIx) (h : r.budgetSafe) : r.budgetSafeBut (some k) := by
  obtain ⟨total, units, entries, nodup, order⟩ := h
  exact ⟨total, fun j _ => units j, fun e he => ⟨(entries e he).1, fun _ => (entries e he).2⟩, nodup, order⟩

theorem Rack.queued_iff {r : Rack} {k : SlotIx} : r.queued k = true ↔ ∃ e ∈ r.queue, e.slot = k := by
  simp [Rack.queued]

theorem Rack.queued_congr {r r' : Rack} (h : r'.queue = r.queue) (k : SlotIx) : r'.queued k = r.queued k := by
  rw [Rack.queued, h, Rack.queued]

/-- A slot whose units and states are as before but for a verdict. -/
theorem Rack.budgetSafeBut_of_same {x : Option SlotIx} {r r' : Rack} (budget : r'.budget = r.budget)
    (queue : r'.queue = r.queue) (same : ∀ j, (r'.slot j).units = (r.slot j).units ∧ (r.slot j).sameState (r'.slot j))
    (h : r.budgetSafeBut x) : r'.budgetSafeBut x := by
  obtain ⟨total, units, entries, nodup, order⟩ := h
  refine ⟨?_, fun k hk hu => ?_, fun e he => ?_, queue ▸ nodup, queue ▸ order⟩
  · have : r'.heldTotal = r.heldTotal := sum_congr fun j => (same j).1
    rw [this, Rack.budgetUnits, budget]; exact total
  · rw [Slot.sameState_inRun (same k).2]
    exact units k hk ((same k).1 ▸ hu)
  · rw [(same e.slot).1, Slot.sameState_mayQueue (same e.slot).2]
    exact entries e (queue ▸ he)

theorem Slot.sameState_refl (a : Slot) : a.sameState a := .inl rfl

theorem Rack.freeUnits_fits {r : Rack} {n : Nat} (held : r.heldTotal ≤ r.budgetUnits) (fits : n ≤ r.freeUnits) :
    r.heldTotal + n ≤ r.budgetUnits := by
  unfold Rack.freeUnits at fits
  omega

/-- A change of one slot that keeps what its state owes to its units and its entry. -/
theorem Rack.budgetSafeBut_of_near {x : Option SlotIx} {k : SlotIx} {r r' : Rack} (near : Rack.Near k r r')
    (queue : r'.queue = r.queue) (units : (r'.slot k).units = (r.slot k).units ∨ (r'.slot k).units = 0)
    (run : x ≠ some k → (r'.slot k).units ≠ 0 → (r.slot k).inRun = true → (r'.slot k).inRun = true)
    (entry : x ≠ some k → r.queued k = true → (r.slot k).mayQueue = true → (r'.slot k).mayQueue = true)
    (h : r.budgetSafeBut x) : r'.budgetSafeBut x := by
  obtain ⟨total, held, entries, nodup, order⟩ := h
  have sum := Rack.heldTotal_near near
  refine ⟨?_, fun j hj hu => ?_, fun e he => ?_, queue ▸ nodup, queue ▸ order⟩
  · rw [Rack.budgetUnits, near.budget, ← Rack.budgetUnits]
    omega
  · by_cases e : j = k
    · subst e
      exact run hj hu (held j hj (by omega))
    · rw [near.slot j e] at hu ⊢; exact held j hj hu
  · have he' := queue ▸ he
    obtain ⟨zero, may⟩ := entries e he'
    by_cases h : e.slot = k
    · subst h
      exact ⟨by omega, fun hx => entry hx (Rack.queued_iff.mpr ⟨e, he', rfl⟩) (may hx)⟩
    · rw [near.slot _ h]; exact ⟨zero, may⟩

/-- A grant to the head of the queue (R123, R124). -/
theorem Rack.budgetSafeBut_of_grant {x : Option SlotIx} {r r' : Rack} {e : QueueEntry} {rest : List QueueEntry}
    (head : r.queue = e :: rest) (fits : e.need ≤ r.freeUnits) (near : Rack.Near e.slot r r') (queue : r'.queue = rest)
    (units : (r'.slot e.slot).units = e.need ∨ (r'.slot e.slot).units = 0)
    (run : (r.slot e.slot).inRun = true → (r'.slot e.slot).inRun = true) (h : r.budgetSafeBut x) :
    r'.budgetSafeBut x := by
  obtain ⟨total, held, entries, nodup, order⟩ := h
  have sum := Rack.heldTotal_near near
  obtain ⟨zero, may⟩ := entries e (by simp [head])
  have room := Rack.freeUnits_fits total fits
  rw [head, List.map_cons, List.nodup_cons] at nodup
  rw [head] at order
  refine ⟨?_, fun j hj hu => ?_, fun d hd => ?_, queue ▸ nodup.2, queue ▸ order.of_cons⟩
  · rw [Rack.budgetUnits, near.budget, ← Rack.budgetUnits]
    omega
  · by_cases same : j = e.slot
    · subst same
      exact run (Slot.inRun_of_mayQueue (may hj))
    · rw [near.slot j same] at hu ⊢; exact held j hj hu
  · have hd' : d ∈ rest := queue ▸ hd
    have other : d.slot ≠ e.slot := fun same => nodup.1 (same ▸ List.mem_map_of_mem hd')
    rw [near.slot _ other]
    exact entries d (by rw [head]; exact .tail _ hd')

theorem Rack.Move.keeps_budgetSafeBut {U : SlotIx → Prop} {x : Option SlotIx} {r r' : Rack} (h : Rack.Move U r r') :
    r.budgetSafeBut x → r'.budgetSafeBut x := by
  intro safe
  cases h with
  | shared | hold => exact safe
  | slot k _ near queue keeps run entry =>
    exact Rack.budgetSafeBut_of_near near queue keeps.units (fun _ => run) (fun _ => entry) safe
  | items _ ev =>
    refine Rack.budgetSafeBut_of_same ev.2.1 ev.2.2.1 (fun j => ?_) safe
    have own := ev.2.2.2.2.2.2 j
    exact ⟨by rw [own.1], Slot.evidence_sameState own⟩
  | grant e rest _ head fits near queue keeps run =>
    exact Rack.budgetSafeBut_of_grant head fits near queue keeps.units run safe
  | queue q slots nodup order =>
    obtain ⟨total, held, entries, nd, ord⟩ := safe
    refine ⟨total, held, fun e he => ?_, nodup nd, order ord⟩
    obtain ⟨e', he', same⟩ := slots e he
    rw [← same]; exact entries e' he'
  | benchGrant k =>
    refine Rack.budgetSafeBut_of_same (r := r) rfl rfl (fun j => ?_) safe
    by_cases e : j = k
    · subst e; rw [Rack.slot_benchGrant_same]; exact ⟨rfl, .inl rfl⟩
    · rw [Rack.slot_benchGrant_ne r e]; exact ⟨rfl, .inl rfl⟩
  | benchEnd k =>
    refine Rack.budgetSafeBut_of_same (r := r) rfl rfl (fun j => ?_) safe
    by_cases e : j = k
    · subst e; rw [Rack.slot_modLine_same]; exact ⟨rfl, .inl rfl⟩
    · rw [Rack.slot_modLine_ne _ _ e, Rack.slot_benchIdle]; exact ⟨rfl, .inl rfl⟩

/-- An entry that joins at the end of its class keeps the order of the classes (R121, R122). -/
theorem rushFirst_joinQueue {q : List QueueEntry} (e : QueueEntry) (h : rushFirst q) : rushFirst (joinQueue e q) := by
  unfold joinQueue
  cases hp : e.priority with
  | normal => exact List.pairwise_append.mpr ⟨h, List.pairwise_singleton _ _, by simp [hp]⟩
  | rush =>
    refine List.pairwise_append.mpr ⟨List.pairwise_append.mpr ⟨h.filter _, List.pairwise_singleton _ _, ?_⟩,
      h.filter _, ?_⟩
    · intro a ha
      simp at ha
      simp [ha.2]
    · intro a _ b hb
      simp at hb
      simp [hb.2]

/-- The joined queue holds the entries of the queue and the new one. -/
theorem perm_joinQueue {q : List QueueEntry} (e : QueueEntry) : (joinQueue e q).Perm (e :: q) := by
  unfold joinQueue
  cases e.priority with
  | normal => exact List.perm_append_singleton e q
  | rush =>
    have split := List.filter_append_perm (fun x : QueueEntry => x.priority == .rush) q
    have classes : (fun x : QueueEntry => !(x.priority == .rush)) = fun x => x.priority == .normal := by
      funext x; cases x.priority <;> rfl
    rw [classes] at split
    rw [List.append_assoc]
    exact (List.perm_middle (a := e)).trans (split.cons e)

/-- A request for units of a slot that holds none and has no entry (R122). -/
theorem Rack.budgetSafeBut_askUnits {r : Rack} {k : SlotIx} (need : Nat) (unqueued : (r.slot k).mayQueue = false)
    (none : (r.slot k).units = 0 ∨ (r.slot k).inRun = false) (h : r.budgetSafe) :
    (r.askUnits k need).budgetSafeBut (some k) := by
  have weak := Rack.budgetSafeBut_weaken k h
  obtain ⟨total, held, entries, nodup, order⟩ := h
  have zero : (r.slot k).units = 0 := none.elim id fun idle => by
    by_contra units
    simp [held k units] at idle
  have absent : ∀ e ∈ r.queue, e.slot ≠ k := by
    rintro e he rfl
    simp [(entries e he).2] at unqueued
  have take : ∀ n, n ≤ r.freeUnits → (r.setUnits k n).budgetSafeBut (some k) := fun n fits => by
    have sum := Rack.heldTotal_near (Rack.near_setUnits r k n)
    rw [Rack.slot_setUnits_same] at sum
    have room := Rack.freeUnits_fits total fits
    refine ⟨?_, fun j hj hu => ?_, fun e he => ?_, nodup, order⟩
    · change _ ≤ r.budgetUnits
      dsimp only at sum
      omega
    · have other : j ≠ k := fun same => hj (by rw [same])
      rw [Rack.slot_setUnits_ne _ _ other] at hu ⊢
      exact held j hu
    · rw [Rack.slot_setUnits_ne _ _ (absent e he)]
      exact ⟨(entries e he).1, fun _ => (entries e he).2⟩
  unfold Rack.askUnits
  split
  · exact take 0 (Nat.zero_le _)
  · split
    · next fits => exact take need fits.2.1
    · split
      · exact weak
      · next c _ =>
        have perm := perm_joinQueue (q := r.queue) ⟨k, c.number, need, c.priority, false⟩
        refine ⟨total, weak.2.1, fun e he => ?_, ?_, rushFirst_joinQueue _ order⟩
        · rcases List.mem_cons.mp (perm.subset he) with rfl | he
          · exact ⟨zero, fun other => absurd rfl other⟩
          · exact weak.2.2.1 e he
        · rw [(perm.map _).nodup_iff, List.map_cons, List.nodup_cons]
          exact ⟨fun mem => by obtain ⟨e, he, same⟩ := List.mem_map.mp mem; exact absent e he same, nodup⟩

theorem Rack.Act.keeps_budgetSafe {U : SlotIx → Prop} {r r' : Rack} (h : Rack.Act U r r') :
    r.budgetSafe → r'.budgetSafe := by
  intro safe
  cases h with
  | move _ m => exact Rack.budgetSafeBut_none.mp (m.keeps_budgetSafeBut (Rack.budgetSafeBut_none.mpr safe))
  | request k need mid _ _ unqueued none pass near queue keeps run entry =>
    have asked := Rack.budgetSafeBut_askUnits need unqueued none safe
    have passed := keeps_of_reflTransGen (I := Rack.budgetSafeBut (some k)) (fun _ _ m => m.keeps_budgetSafeBut) pass asked
    obtain ⟨total, held, entries, nodup, order⟩ :=
      Rack.budgetSafeBut_of_near near queue keeps.units (fun other => absurd rfl other) (fun other => absurd rfl other) passed
    refine ⟨total, fun j hu => ?_, fun e he => ⟨(entries e he).1, ?_⟩, nodup, order⟩
    · by_cases same : j = k
      · rw [same]; exact run
      · exact held j (by simpa using Ne.symm same) hu
    · by_cases same : e.slot = k
      · rw [same]; exact entry (Rack.queued_iff.mpr ⟨e, queue ▸ he, same⟩)
      · exact (entries e he).2 (by simpa using Ne.symm same)
  | budget n idle =>
    obtain ⟨total, held, entries, nodup, order⟩ := safe
    refine ⟨?_, held, entries, nodup, order⟩
    rcases idle with idle | same
    · have zero : ∀ j, (r.slot j).units = 0 := fun j => by
        by_contra units
        have := held j units
        simp [idle j] at this
      have : r.heldTotal = 0 := (sum_congr (g := fun j => (r.slot j).units) (f := fun _ => 0) zero).trans (by decide)
      exact (Nat.le_of_eq this).trans (Nat.zero_le _)
    · exact same ▸ total

theorem Rack.Acts.keeps_budgetSafe {U : SlotIx → Prop} {r r' : Rack} (h : Rack.Acts U r r') :
    r.budgetSafe → r'.budgetSafe :=
  keeps_of_reflTransGen (I := Rack.budgetSafe) (fun _ _ a => a.keeps_budgetSafe) h

end Sys2Proof.Machine
end

section
/-! Evidence keeps the pool: rank lists stay in rank order with one suspect for a component, and a new suspect takes an entry
that is free (R34 to R38, R49 to R52). -/

namespace Sys2Proof.Machine

/-! ## Rank order (R38) -/

/-- The order of R38, by its keys. -/
theorem Suspect.before_iff {x y : Suspect} : x.before y = true ↔
    x.state.cls < y.state.cls ∨ x.state.cls = y.state.cls ∧ (y.fails < x.fails ∨ x.fails = y.fails ∧
      (x.serial < y.serial ∨ x.serial = y.serial ∧ x.component < y.component)) := by
  unfold Suspect.before
  split_ifs <;> simp <;> omega

theorem Suspect.before_trans {x y z : Suspect} (h : x.before y = true) (g : y.before z = true) : x.before z = true := by
  rw [Suspect.before_iff] at *
  omega

theorem Suspect.before_total {x y : Suspect} (h : y.component ≠ x.component) (g : ¬ x.before y = true) :
    y.before x = true := by
  rw [Suspect.before_iff] at *
  omega

/-- A list in rank order with at most one suspect for a component (R36, R38). -/
def ranked (l : List Suspect) : Prop :=
  l.Pairwise (fun x y => x.before y = true) ∧ (l.map (·.component)).Nodup

theorem ranked_sublist {l l' : List Suspect} (h : l'.Sublist l) (r : ranked l) : ranked l' :=
  ⟨r.1.sublist h, r.2.sublist (h.map _)⟩

theorem rankInsert_perm (x : Suspect) (l : List Suspect) : (rankInsert x l).Perm (x :: l) := by
  induction l with
  | nil => exact .refl _
  | cons y ys ih =>
    unfold rankInsert
    split
    · exact .refl _
    · exact (ih.cons y).trans (.swap x y ys)

/-- A suspect of a new component takes its place. -/
theorem ranked_rankInsert {x : Suspect} {l : List Suspect} (new : ∀ y ∈ l, y.component ≠ x.component) (h : ranked l) :
    ranked (rankInsert x l) := by
  refine ⟨?_, ?_⟩
  · obtain ⟨sorted, -⟩ := h
    induction l with
    | nil => exact List.pairwise_singleton _ _
    | cons y ys ih =>
      obtain ⟨first, rest⟩ := List.pairwise_cons.mp sorted
      unfold rankInsert
      split
      · next lt =>
        refine List.pairwise_cons.mpr ⟨fun z hz => ?_, sorted⟩
        rcases List.mem_cons.mp hz with rfl | hz
        · exact lt
        · exact Suspect.before_trans lt (first z hz)
      · next ge =>
        refine List.pairwise_cons.mpr ⟨fun z hz => ?_, ih (fun z hz => new z (.tail _ hz)) rest⟩
        rcases List.mem_cons.mp ((rankInsert_perm x ys).subset hz) with rfl | hz
        · exact Suspect.before_total (new y (.head _)) ge
        · exact first z hz
  · rw [((rankInsert_perm x l).map _).nodup_iff, List.map_cons, List.nodup_cons]
    refine ⟨fun mem => ?_, h.2⟩
    obtain ⟨y, hy, same⟩ := List.mem_map.mp mem
    exact new y hy same

theorem ranked_rankPlace (x : Suspect) {l : List Suspect} (h : ranked l) : ranked (rankPlace x l) :=
  ranked_rankInsert (fun y hy => by simpa [rankRemove] using (List.mem_filter.mp hy).2)
    (ranked_sublist List.filter_sublist h)

theorem length_rankPlace_le (x : Suspect) (l : List Suspect) : (rankPlace x l).length ≤ l.length + 1 := by
  rw [rankPlace, (rankInsert_perm x _).length_eq, List.length_cons]
  exact Nat.succ_le_succ (List.length_filter_le _ _)

/-- A suspect placed for one that the list holds. -/
theorem length_rankPlace_held {x y : Suspect} {l : List Suspect} (mem : y ∈ l) (same : y.component = x.component) :
    (rankPlace x l).length ≤ l.length := by
  rw [rankPlace, (rankInsert_perm x _).length_eq, List.length_cons]
  exact List.length_filter_lt_length_iff_exists.mpr ⟨y, mem, by simp [same]⟩

theorem rankSort_perm (l : List Suspect) : (rankSort l).Perm l := by
  induction l with
  | nil => exact .refl _
  | cons x xs ih => exact (rankInsert_perm x _).trans (ih.cons x)

theorem ranked_rankSort {l : List Suspect} (h : (l.map (·.component)).Nodup) : ranked (rankSort l) := by
  induction l with
  | nil => exact ⟨.nil, .nil⟩
  | cons x xs ih =>
    obtain ⟨new, rest⟩ := List.nodup_cons.mp h
    refine ranked_rankInsert (fun y hy same => new ?_) (ih rest)
    exact List.mem_map.mpr ⟨y, (rankSort_perm xs).subset hy, same⟩

theorem suspectFor_some {n : Nat} {l : List Suspect} {x : Suspect} (h : suspectFor n l = some x) :
    x ∈ l ∧ x.component = n :=
  ⟨List.mem_of_find?_eq_some h, by simpa using List.find?_some h⟩

/-! ## The component of a suspect -/

@[simp] theorem Suspect.component_seeAt (p : Option Position) (x : Suspect) : (x.seeAt p).component = x.component := by
  unfold Suspect.seeAt
  cases p with
  | none => rfl
  | some p => dsimp only; split <;> rfl

@[simp] theorem Suspect.component_confirmTest (h : Header) (x : Suspect) :
    (x.confirmTest h).component = x.component := by
  unfold Suspect.confirmTest; split <;> rfl

@[simp] theorem Suspect.component_takeFail (h : Header) (f : Fail) (x : Suspect) :
    (x.takeFail h f).component = x.component := by
  unfold Suspect.takeFail
  rw [Suspect.component_confirmTest]
  split
  · rfl
  · simp [Suspect.addFail]

@[simp] theorem Suspect.component_takePass (h : Header) (x : Suspect) : (x.takePass h).component = x.component := by
  unfold Suspect.takePass
  dsimp only
  split <;> rfl

/-! ## Items -/

/-- What an evidence item may do to the rack (R39). -/
structure Rack.Items (r r' : Rack) : Prop where
  evidence : r.evidence r'
  empty : ∀ j, (r.slot j).record = none → r'.slot j = r.slot j
  pool : r.poolSafe → r'.poolSafe

theorem Rack.Items.refl (r : Rack) : Rack.Items r r := ⟨r.evidence_refl, fun _ _ => rfl, id⟩

theorem Rack.Items.trans {a b c : Rack} (h : Rack.Items a b) (g : Rack.Items b c) : Rack.Items a c where
  evidence := Rack.evidence_trans h.evidence g.evidence
  empty j e := by
    have := h.empty j e
    rw [g.empty j (by rw [this]; exact e), this]
  pool := g.pool ∘ h.pool

theorem Rack.Items.moves {U : SlotIx → Prop} {r r' : Rack} (h : Rack.Items r r') : Rack.Moves U r r' :=
  .single (.items r' h.evidence h.empty h.pool)

theorem Rack.suspects_of_record {r : Rack} {k : SlotIx} {c : CaseRecord} (hc : (r.slot k).record = some c) :
    (r.slot k).suspects = c.suspects := by simp [Slot.suspects, hc]

theorem Rack.suspects_setList {r : Rack} {k : SlotIx} {c : CaseRecord} (hc : (r.slot k).record = some c)
    (l : List Suspect) : ((r.setList k l).slot k).suspects = l := by
  simp [Slot.suspects, hc, CaseRecord.withList]

theorem Rack.near_setList (r : Rack) (k : SlotIx) (l : List Suspect) : Rack.Near k r (r.setList k l) :=
  ⟨rfl, rfl, rfl, fun _ h => by simp [h]⟩

/-- The used entries after the list of a case is replaced. -/
theorem Rack.usedEntries_setList {r : Rack} {k : SlotIx} {c : CaseRecord} (hc : (r.slot k).record = some c)
    (l : List Suspect) : (r.setList k l).usedEntries + c.suspects.length = r.usedEntries + l.length := by
  have := Rack.usedEntries_near (r.near_setList k l)
  rwa [Slot.suspectCount_eq, Slot.suspectCount_eq, Rack.suspects_setList hc, Rack.suspects_of_record hc] at this

/-- A ranked list of a size that the pool has room for keeps the pool safe. -/
theorem Rack.poolSafe_setList {r : Rack} {k : SlotIx} {c : CaseRecord} {l : List Suspect}
    (hc : (r.slot k).record = some c) (rank : ranked c.suspects → ranked l)
    (size : r.usedEntries + l.length ≤ Config.poolSize + c.suspects.length) (h : r.poolSafe) :
    (r.setList k l).poolSafe := by
  refine ⟨?_, fun j => ?_⟩
  · have := Rack.usedEntries_setList hc l
    omega
  · by_cases e : j = k
    · subst e
      rw [Rack.suspects_setList hc]
      exact rank (Rack.suspects_of_record hc ▸ h.2 j)
    · rw [Rack.slot_setList_ne _ _ e]; exact h.2 j

/-- The pool is that of the rank lists alone. -/
theorem Rack.poolSafe_iff_of_lists {r r' : Rack} (same : ∀ j, (r'.slot j).suspects = (r.slot j).suspects) :
    r'.poolSafe ↔ r.poolSafe :=
  ⟨Rack.poolSafe_of_lists fun j => (same j).symm, Rack.poolSafe_of_lists same⟩

theorem Rack.usedEntries_of_lists {r r' : Rack} (same : ∀ j, (r'.slot j).suspects = (r.slot j).suspects) :
    r'.usedEntries = r.usedEntries :=
  sum_congr fun j => by rw [Slot.suspectCount_eq, Slot.suspectCount_eq, same j]

/-- A change of one record that keeps its list. -/
theorem Rack.suspects_modCase {r : Rack} {k : SlotIx} {f : CaseRecord → CaseRecord}
    (keep : ∀ c, (f c).suspects = c.suspects) (j : SlotIx) :
    ((r.modCase k f).slot j).suspects = (r.slot j).suspects := by
  by_cases e : j = k
  · subst e
    rw [Rack.slot_modCase_same]
    unfold Slot.suspects
    cases (r.slot j).record with
    | none => rfl
    | some c => exact keep c
  · rw [Rack.slot_modCase_ne _ _ e]

theorem Rack.suspects_stamp (r : Rack) (k j : SlotIx) : ((r.stamp k).slot j).suspects = (r.slot j).suspects := by
  by_cases e : j = k
  · subst e; rw [Rack.slot_stamp_same]; rfl
  · rw [Rack.slot_stamp_ne _ e]

theorem Rack.items_noticeSlot (r : Rack) (k : SlotIx) : Rack.Items r (r.noticeSlot k) :=
  ⟨r.evidence_noticeSlot k, fun _ _ => rfl, id⟩

theorem Rack.items_noticeConfirmed (r : Rack) (k : SlotIx) (b : Option SuspectState) (a : SuspectState) :
    Rack.Items r (r.noticeConfirmed k b a) := by
  unfold Rack.noticeConfirmed
  split
  · exact r.items_noticeSlot k
  · exact .refl r

theorem Rack.items_stamp {r : Rack} {k : SlotIx} (opened : (r.slot k).record ≠ none) : Rack.Items r (r.stamp k) where
  evidence := r.evidence_stamp k
  empty j e := Rack.slot_stamp_ne _ (by rintro rfl; exact opened e)
  pool := Rack.poolSafe_of_lists (r.suspects_stamp k)

theorem Rack.items_modCase {r : Rack} (k : SlotIx) {f : CaseRecord → CaseRecord}
    (evidence : ∀ c : CaseRecord, c.evidence (f c)) (keep : ∀ c, (f c).suspects = c.suspects) :
    Rack.Items r (r.modCase k f) where
  evidence := r.evidence_modCase k f evidence
  empty j e := by
    by_cases h : j = k
    · subst h; rw [Rack.slot_modCase_same, e]; exact congrArg (fun x => { r.slot j with record := x }) e.symm
    · exact Rack.slot_modCase_ne _ _ h
  pool := Rack.poolSafe_of_lists (Rack.suspects_modCase keep)

theorem Rack.items_setList {r : Rack} {k : SlotIx} {c : CaseRecord} {l : List Suspect}
    (hc : (r.slot k).record = some c) (rank : ranked c.suspects → ranked l)
    (size : r.poolSafe → r.usedEntries + l.length ≤ Config.poolSize + c.suspects.length) :
    Rack.Items r (r.setList k l) where
  evidence := r.evidence_setList k l
  empty j e := Rack.slot_setList_ne _ _ (by rintro rfl; simp [hc] at e)
  pool h := Rack.poolSafe_setList hc rank (size h) h

/-- A suspect of the list is replaced by one of its component. -/
theorem Rack.items_setList_place {r : Rack} {k : SlotIx} {c : CaseRecord} {x y : Suspect}
    (hc : (r.slot k).record = some c) (mem : x ∈ c.suspects) (same : x.component = y.component) :
    Rack.Items r (r.setList k (rankPlace y c.suspects)) :=
  Rack.items_setList hc (ranked_rankPlace y) fun h => by
    have := length_rankPlace_held mem same
    have := h.1
    omega

theorem Slot.record_ne_none_of_suspects {a : Slot} {x : Suspect} (h : x ∈ a.suspects) : ∃ c, a.record = some c := by
  unfold Slot.suspects at h
  cases hr : a.record with
  | none => simp [hr] at h
  | some c => exact ⟨c, rfl⟩

/-- The entry found for a new suspect leaves a free one (R49 to R51). -/
theorem Rack.items_findEntry {r r' : Rack} {k : SlotIx} (h : r.findEntry k = some r') :
    Rack.Items r r' ∧ (r.poolSafe → r'.usedEntries < Config.poolSize) := by
  have give : ∀ (j : SlotIx) (l₁ l₂ : List Suspect) (y : Suspect), (r.slot j).suspects = l₁ ++ y :: l₂ →
      ((r.slot j).record ≠ none) ∧ Rack.Items r (r.setList j (l₁ ++ l₂)) ∧
        (r.poolSafe → (r.setList j (l₁ ++ l₂)).usedEntries < Config.poolSize) := by
    intro j l₁ l₂ y e
    obtain ⟨c, hc⟩ := Slot.record_ne_none_of_suspects (a := r.slot j) (x := y) (by simp [e])
    rw [Rack.suspects_of_record hc] at e
    have total := Rack.usedEntries_setList hc (l₁ ++ l₂)
    have length : c.suspects.length = (l₁ ++ l₂).length + 1 := by simp [e]; omega
    refine ⟨by simp [hc], Rack.items_setList hc (ranked_sublist ?_) fun safe => ?_, fun safe => ?_⟩
    · rw [e]; exact (List.sublist_cons_self y l₂).append_left l₁
    · have := safe.1; omega
    · have := safe.1; omega
  rcases Rack.entryFound_of_findEntry h with ⟨free, rfl⟩ | ⟨-, l₁, l₂, y, e, -, -, rfl⟩ |
      ⟨-, -, j, l₁, l₂, y, -, e, -, -, -, rfl⟩
  · exact ⟨.refl _, fun _ => by unfold Rack.freeEntries at free; omega⟩
  · obtain ⟨-, items, room⟩ := give k l₁ l₂ y e
    exact ⟨items, room⟩
  · obtain ⟨opened, items, room⟩ := give j l₁ l₂ y e
    refine ⟨items.trans (Rack.items_stamp ?_), fun safe => ?_⟩
    · simpa using opened
    · rw [Rack.usedEntries_of_lists (Rack.suspects_stamp _ j)]; exact room safe

/-- A new suspect takes an entry that is free (R37, R40). -/
theorem Rack.poolSafe_createSuspect (st : Store) {r : Rack} {k : SlotIx} {n : Nat} {f : Fail}
    (room : r.usedEntries < Config.poolSize) (h : r.poolSafe) : (r.createSuspect st k n f).poolSafe := by
  unfold Rack.createSuspect
  cases hc : (r.slot k).record with
  | none => exact h
  | some c =>
    dsimp only
    refine (Rack.items_noticeConfirmed _ k _ _).pool (Rack.poolSafe_of_lists (Rack.suspects_modCase fun _ => rfl)
      (Rack.poolSafe_setList hc (ranked_rankPlace _) ?_ h))
    have := length_rankPlace_le ((Suspect.fresh n c.nextSerial false f).confirmTest (caseModel st c).header) c.suspects
    omega

theorem Rack.slot_noticeConfirmed (r : Rack) (k j : SlotIx) (b : Option SuspectState) (a : SuspectState) :
    (r.noticeConfirmed k b a).slot j = r.slot j := by
  unfold Rack.noticeConfirmed
  split <;> simp

theorem Rack.slot_createSuspect_empty (st : Store) {r : Rack} {j : SlotIx} (k : SlotIx) (n : Nat) (f : Fail)
    (e : (r.slot j).record = none) : (r.createSuspect st k n f).slot j = r.slot j := by
  unfold Rack.createSuspect
  cases hc : (r.slot k).record with
  | none => rfl
  | some c =>
    have other : j ≠ k := by rintro rfl; simp [hc] at e
    simp [Rack.slot_noticeConfirmed, other]

theorem Rack.items_takeFail (st : Store) {r r' : Rack} {k : SlotIx} {n : Nat} {f : Fail} {moved : Bool}
    (h : r.takeFail st k n f = some (r', moved)) : Rack.Items r r' ∧ (moved = true → (r.slot k).record ≠ none) := by
  unfold Rack.takeFail at h
  cases hc : (r.slot k).record with
  | none =>
    simp only [hc, Option.some.injEq, Prod.mk.injEq] at h
    obtain ⟨rfl, rfl⟩ := h
    exact ⟨.refl r, by simp⟩
  | some c =>
    refine ⟨?_, by simp⟩
    simp only [hc] at h
    split at h
    · simp only [Option.some.injEq, Prod.mk.injEq] at h
      exact h.1 ▸ .refl r
    · split at h
      · next x hx =>
        simp only [Option.some.injEq, Prod.mk.injEq] at h
        exact h.1 ▸ .trans (Rack.items_setList_place hc (suspectFor_some hx).1 (by simp)) (Rack.items_noticeConfirmed _ k _ _)
      · cases he : r.findEntry k with
        | none => simp [he] at h
        | some r1 =>
          simp only [he, Option.map_some, Option.some.injEq, Prod.mk.injEq] at h
          obtain ⟨items, room⟩ := Rack.items_findEntry he
          refine h.1 ▸ ⟨Rack.evidence_trans items.evidence (r1.evidence_createSuspect st k n f), fun j e => ?_,
            fun safe => Rack.poolSafe_createSuspect st (room safe) (items.pool safe)⟩
          have same := items.empty j e
          rw [Rack.slot_createSuspect_empty st k n f (by rw [same]; exact e), same]

/-- Evidence keeps a slot's case open. -/
theorem Rack.Items.opened {r r' : Rack} (h : Rack.Items r r') {k : SlotIx} (opened : (r.slot k).record ≠ none) :
    (r'.slot k).record ≠ none := by
  obtain ⟨c, hc⟩ := Option.ne_none_iff_exists'.mp opened
  obtain ⟨c', hc', -⟩ := (h.evidence.2.2.2.2.2.2 k).2.2 c hc
  simp [hc']

theorem Rack.items_unplaced (r : Rack) (k : SlotIx) : Rack.Items r (r.unplaced k) := by
  unfold Rack.unplaced
  split
  · exact .refl r
  · dsimp only
    have counted : Rack.Items r
        (r.modCase k fun c => { c with unplaced := bump Config.max8 c.unplaced, poolFull := true }) :=
      Rack.items_modCase k (fun c => ⟨rfl, fun _ => rfl, fun _ v h => ⟨v, h⟩⟩) fun _ => rfl
    split
    · exact counted
    · exact counted.trans (Rack.items_noticeSlot _ k)

/-- A FAIL item of a slot block (R39 to R44, R47, R52). -/
theorem Rack.items_failItem (st : Store) (r : Rack) (k : SlotIx) (n : Nat) (f : Fail) :
    Rack.Items r (r.failItem st k n f) := by
  unfold Rack.failItem
  cases h : r.takeFail st k n f with
  | none => exact r.items_unplaced k
  | some p =>
    obtain ⟨r', moved⟩ := p
    obtain ⟨items, opened⟩ := Rack.items_takeFail st h
    dsimp only
    split
    · next h => exact items.trans (Rack.items_stamp (items.opened (opened h)))
    · exact items

theorem Rack.items_failNow (st : Store) (r : Rack) (k : SlotIx) (n : Nat) (y : Symptom) :
    Rack.Items r (r.failNow st k n y) := r.items_failItem st k n _

/-- A PASS item (R45, R47). -/
theorem Rack.items_passItem (st : Store) (r : Rack) (k : SlotIx) (n : Nat) : Rack.Items r (r.passItem st k n) := by
  unfold Rack.passItem
  cases hc : (r.slot k).record with
  | none => exact .refl r
  | some c =>
    dsimp only
    split
    · exact .refl r
    · next x hx =>
      have placed := Rack.items_setList_place (y := x.takePass (caseModel st c).header) hc (suspectFor_some hx).1 (by simp)
      split
      · exact placed
      · exact placed.trans (Rack.items_stamp (placed.opened (by simp [hc])))

/-- A suspect is judged by hand (R61, R62). -/
theorem Rack.items_judgeSuspect {r : Rack} {k : SlotIx} {c : CaseRecord} {x : Suspect} (after : SuspectState)
    (hc : (r.slot k).record = some c) (mem : x ∈ c.suspects) : Rack.Items r (r.judgeSuspect k c x after) :=
  .trans (Rack.items_setList_place (y := { x with state := after }) hc mem rfl) (Rack.items_noticeConfirmed _ k _ _)

/-- The list of a case after a REWORK (R57). -/
theorem Rack.items_reworkList {r : Rack} {k : SlotIx} {c : CaseRecord} (m : Model) (t : ReworkTarget)
    (hc : (r.slot k).record = some c) : Rack.Items r (r.setList k (reworkList m t c.suspects)) := by
  have components : (c.suspects.map fun x => if t.selects m x then x.rework else x).map (·.component) =
      c.suspects.map (·.component) := by
    rw [List.map_map]
    refine List.map_congr_left fun x _ => ?_
    dsimp only [Function.comp]
    split <;> rfl
  refine Rack.items_setList hc (fun rank => ranked_rankSort (by rw [components]; exact rank.2)) fun safe => ?_
  have := safe.1
  rw [reworkList, (rankSort_perm _).length_eq, List.length_map]
  omega

end Sys2Proof.Machine
end

section
/-! The operations of the rack, as the changes that they are made of: grants, the end of a run, the stage advance, the bench at a
boundary, and what the slot blocks report. -/

namespace Sys2Proof.Machine

variable {U : SlotIx → Prop}

/-! ## The state of a case -/

/-- The states under which a rail may be on (R136). -/
def CaseState.powers : CaseState → Bool
  | .powering | .running | .paused | .waiting => true
  | .ready | .resting | .faulted _ | .pulled | .done _ _ => false

/-- The states in which a case may have a queue entry (R121). -/
def CaseState.queues : CaseState → Bool
  | .waiting | .resting | .powering => true
  | .ready | .running | .paused | .faulted _ | .pulled | .done _ _ => false

theorem CaseState.inRun_of_powers {cs : CaseState} (h : cs.powers = true) : cs.inRun = true := by
  cases cs <;> simp_all [CaseState.powers, CaseState.inRun]

theorem CaseState.powers_of_not_inRun {cs : CaseState} (h : cs.inRun = false) : cs.powers = false := by
  cases cs <;> simp_all [CaseState.powers, CaseState.inRun]

theorem CaseState.queues_of_not_inRun {cs : CaseState} (h : cs.inRun = false) : cs.queues = false := by
  cases cs <;> simp_all [CaseState.queues, CaseState.inRun]

theorem Slot.caseState_of_record {a : Slot} {c : CaseRecord} (h : a.record = some c) : a.caseState = some c.state := by
  simp [Slot.caseState, h]

theorem Slot.record_of_caseState {a : Slot} {cs : CaseState} (h : a.caseState = some cs) :
    ∃ c, a.record = some c ∧ c.state = cs := Option.map_eq_some_iff.mp h

theorem Slot.inRun_of_caseState {a : Slot} {cs : CaseState} (h : a.caseState = some cs) : a.inRun = cs.inRun := by
  rw [Slot.inRun_eq, h]; rfl

theorem Slot.takesTrip_of_caseState {a : Slot} {cs : CaseState} (h : a.caseState = some cs) :
    a.takesTrip = cs.powers := by
  unfold Slot.takesTrip
  rw [h]
  cases cs <;> rfl

theorem Slot.mayQueue_of_caseState {a : Slot} {cs : CaseState} (h : a.caseState = some cs) :
    a.mayQueue = cs.queues := by
  unfold Slot.mayQueue
  rw [h]
  cases cs <;> rfl

/-! ## Lines -/

/-- A line that is not PASSED begins, goes on with or ends an exchange. -/
theorem Line.follows_of {l l' : Line} (was : l.exchange ≠ none ∨ l.state = .idle)
    (now : (l'.exchange ≠ none ∧ l'.state ≠ .idle ∧ l'.state ≠ .passed) ∨ (l'.exchange = none ∧ l'.state = .idle)) :
    l.follows l' := by
  intro sound
  have open' : l.state ≠ .passed := by
    rcases was with h | h
    · exact fun p => h (sound.mpr (.inr p))
    · simp [h]
  rcases now with ⟨x, idle, passed⟩ | ⟨x, idle⟩
  · exact ⟨iff_of_false x (by simp [idle, passed]), iff_of_false passed open'⟩
  · exact ⟨iff_of_true x (.inl idle), iff_of_false (by simp [idle]) open'⟩

/-- A line in the state it was in. -/
theorem Line.follows_same {l l' : Line} (state : l'.state = l.state) (exchange : l'.exchange = none ↔ l.exchange = none) :
    l.follows l' := by
  intro sound
  refine ⟨?_, by rw [state]⟩
  rw [Line.sound, exchange, state]
  exact sound

theorem Line.follows_trans {a b c : Line} (h : a.follows b) (g : b.follows c) : a.follows c := by
  intro sound
  obtain ⟨hb, pb⟩ := h sound
  obtain ⟨hc, pc⟩ := g hb
  exact ⟨hc, pc.trans pb⟩

theorem Line.follows_abort (l : Line) : l.follows l.abort := by
  unfold Line.abort
  cases h : l.exchange with
  | none => exact Line.follows_refl l
  | some x => exact Line.follows_of (.inl (by simp [h])) (.inr ⟨rfl, rfl⟩)

/-! ## One slot -/

/-- A change of a slot that leaves the state of its case, its list, its units and its latch. -/
structure Slot.Tame (a b : Slot) : Prop where
  state : b.caseState = a.caseState
  pool : b.suspects = a.suspects
  units : b.units = a.units
  latch : b.latchClosed = a.latchClosed
  rail : b.rail.state.isOn = true → a.rail.state.isOn = true
  line : a.line.follows b.line

theorem Slot.Tame.railSafe {a b : Slot} (h : Slot.Tame a b) (safe : a.railSafe) : b.railSafe := by
  rw [Slot.railSafe, Slot.sameState_takesTrip (.inl h.state), Slot.sameState_inRun (.inl h.state), h.latch]
  exact ⟨fun on => safe.1 (h.rail on), safe.2⟩

theorem Slot.Tame.keeps {a b : Slot} (h : Slot.Tame a b) : Slot.Keeps a b :=
  ⟨h.railSafe, .inl h.units, .inl h.pool, h.line⟩

theorem Slot.ne_reset_of_record {a : Slot} {c : CaseRecord} (h : a.record = some c) : a ≠ Slot.reset := by
  rintro rfl
  simp [Slot.reset] at h

theorem Rack.moves_of_tame {k : SlotIx} {r r' : Rack} (near : Rack.Near k r r') (queue : r'.queue = r.queue)
    (live : U k ∨ r.slot k ≠ Slot.reset ∨ r'.slot k = r.slot k) (tame : Slot.Tame (r.slot k) (r'.slot k)) :
    Rack.Moves U r r' :=
  .single (.slot k r' near queue tame.keeps (fun _ run => (Slot.sameState_inRun (.inl tame.state)).trans run)
    (fun _ may => (Slot.sameState_mayQueue (.inl tame.state)).trans may) live)

theorem Rack.near_modSlot (r : Rack) (k : SlotIx) (f : Slot → Slot) : Rack.Near k r (r.modSlot k f) :=
  ⟨rfl, rfl, rfl, fun _ h => by simp [h]⟩

theorem Rack.moves_modSlot {r : Rack} {k : SlotIx} {f : Slot → Slot} (u : U k)
    (tame : Slot.Tame (r.slot k) (f (r.slot k))) : Rack.Moves U r (r.modSlot k f) :=
  Rack.moves_of_tame (r.near_modSlot k f) rfl (.inl u) (by rwa [Rack.slot_modSlot_same])

/-- A change of a record outside its state and its list. -/
theorem Rack.moves_modCase {r : Rack} {k : SlotIx} {f : CaseRecord → CaseRecord} (u : U k)
    (state : ∀ c, (f c).state = c.state) (pool : ∀ c, (f c).suspects = c.suspects) : Rack.Moves U r (r.modCase k f) := by
  refine Rack.moves_modSlot u ⟨?_, ?_, rfl, rfl, id, Line.follows_refl _⟩
  · unfold Slot.caseState
    cases (r.slot k).record with
    | none => rfl
    | some c => exact congrArg some (state c)
  · unfold Slot.suspects
    cases (r.slot k).record with
    | none => rfl
    | some c => exact pool c

theorem Rack.moves_modStay {r : Rack} {k : SlotIx} {f : Stay → Stay} (u : U k) : Rack.Moves U r (r.modStay k f) :=
  Rack.moves_modCase u (fun _ => rfl) fun _ => rfl

theorem Rack.moves_beginStay (st : Store) {r : Rack} {k : SlotIx} {p : Position} (u : U k) :
    Rack.Moves U r (r.beginStay st k p) := Rack.moves_modCase u (fun _ => rfl) fun _ => rfl

theorem Rack.moves_modSeq {r : Rack} {k : SlotIx} {f : Sequencer → Sequencer} (u : U k) :
    Rack.Moves U r (r.modSeq k f) := Rack.moves_modSlot u ⟨rfl, rfl, rfl, rfl, id, Line.follows_refl _⟩

theorem Rack.moves_modWatch {r : Rack} {k : SlotIx} {f : Watch → Watch} (u : U k) :
    Rack.Moves U r (r.modWatch k f) := Rack.moves_modSlot u ⟨rfl, rfl, rfl, rfl, id, Line.follows_refl _⟩

theorem Rack.moves_modRail {r : Rack} {k : SlotIx} {f : Rail → Rail} (u : U k)
    (off : (f (r.slot k).rail).state.isOn = true → (r.slot k).rail.state.isOn = true) :
    Rack.Moves U r (r.modRail k f) := Rack.moves_modSlot u ⟨rfl, rfl, rfl, rfl, off, Line.follows_refl _⟩

theorem Rack.moves_modLine {r : Rack} {k : SlotIx} {f : Line → Line} (u : U k)
    (line : (r.slot k).line.follows (f (r.slot k).line)) :
    Rack.Moves U r (r.modLine k f) := Rack.moves_modSlot u ⟨rfl, rfl, rfl, rfl, id, line⟩

theorem Rack.moves_stamp {r : Rack} {k : SlotIx} (u : U k) : Rack.Moves U r (r.stamp k) :=
  Rack.moves_modSlot u ⟨rfl, rfl, rfl, rfl, id, Line.follows_refl _⟩

/-- A slot gives its units back (R126). -/
theorem Rack.moves_release {r : Rack} {k : SlotIx} (live : U k ∨ r.slot k ≠ Slot.reset ∨ (r.setUnits k 0).slot k = r.slot k) :
    Rack.Moves U r (r.setUnits k 0) := by
  refine .single (.slot k _ (r.near_setUnits k 0) rfl ?_ ?_ ?_ live) <;> rw [Rack.slot_setUnits_same]
  · exact ⟨id, .inr rfl, .inl rfl, Line.follows_refl _⟩
  · exact fun units => absurd rfl units
  · exact fun _ may => may

theorem Rack.moves_noticeSlot (r : Rack) (k : SlotIx) : Rack.Moves U r (r.noticeSlot k) :=
  .single (.shared r.quiesce r.bench _ rfl)

theorem Rack.moves_noticeFlag (r : Rack) (g : RackFlag) : Rack.Moves U r (r.noticeFlag g) :=
  .single (.shared r.quiesce r.bench _ rfl)

theorem Rack.moves_checkQuiesced (r : Rack) : Rack.Moves U r r.checkQuiesced := by
  unfold Rack.checkQuiesced
  split
  · exact .single (.shared .quiesced r.bench _ rfl)
  · exact .refl

/-- The queue loses entries. -/
theorem Rack.moves_dropEntries {r : Rack} {q : List QueueEntry} (h : q.Sublist r.queue) :
    Rack.Moves U r { r with queue := q } :=
  .single (.queue q (fun e he => ⟨e, h.subset he, rfl⟩) (fun nodup => nodup.sublist (h.map _))
    fun order => order.sublist h)

theorem Rack.moves_giveBack {r : Rack} {k : SlotIx} (u : U k) : Rack.Moves U r (r.giveBack k) :=
  (Rack.moves_release (.inl u)).trans (Rack.moves_dropEntries (r := r.setUnits k 0) List.filter_sublist)

/-! ## The entry of a state -/

/-- A slot whose case stands in the state `cs`. -/
theorem Slot.railSafe_entered {a b : Slot} {x cs : CaseState} (old : a.caseState = some x) (new : b.caseState = some cs)
    (latch : b.latchClosed = a.latchClosed) (on : b.rail.state.isOn = true → (x.powers = true → cs.powers = true) ∧
      (a.rail.state.isOn = true ∨ cs.powers = true))
    (run : cs.inRun = true → x.inRun = true ∨ a.latchClosed = true) (safe : a.railSafe) : b.railSafe := by
  rw [Slot.railSafe, Slot.takesTrip_of_caseState new, Slot.inRun_of_caseState new, latch]
  rw [Slot.railSafe, Slot.takesTrip_of_caseState old, Slot.inRun_of_caseState old] at safe
  have closed : cs.inRun = true → a.latchClosed = true := fun h => (run h).elim safe.2 id
  refine ⟨fun h => ?_, closed⟩
  obtain ⟨lead, was⟩ := on h
  have powers : cs.powers = true := was.elim (fun w => lead (safe.1 w).1) id
  exact ⟨powers, closed (CaseState.inRun_of_powers powers)⟩

/-- A case enters a state that fits its rail, its latch, its units and its entry. -/
theorem Rack.moves_enter {r : Rack} {k : SlotIx} {x cs : CaseState} (u : U k) (old : (r.slot k).caseState = some x)
    (on : (r.slot k).rail.state.isOn = true → x.powers = true → cs.powers = true)
    (latch : cs.inRun = true → x.inRun = true ∨ (r.slot k).latchClosed = true)
    (run : (r.slot k).units ≠ 0 → x.inRun = true → cs.inRun = true)
    (entry : r.queued k = true → x.queues = true → cs.queues = true) : Rack.Moves U r (r.enter k cs) := by
  obtain ⟨c, hc, rfl⟩ := Slot.record_of_caseState old
  have new : ((r.enter k cs).slot k).caseState = some cs := by simp [Slot.caseState, hc]
  refine .single (.slot k _ ⟨rfl, rfl, rfl, fun _ h => by simp [h]⟩ rfl ?_ ?_ ?_ (.inl u))
  · refine ⟨Slot.railSafe_entered old new (by simp) (fun h => ?_) latch, .inl (by simp), .inl ?_, ?_⟩
    · have h' : (r.slot k).rail.state.isOn = true := by simpa using h
      exact ⟨on h', .inl h'⟩
    · simp [Slot.suspects, hc]
    · simpa using Line.follows_refl _
  · rw [Slot.inRun_of_caseState old, Slot.inRun_of_caseState new]
    simpa using run
  · rw [Slot.mayQueue_of_caseState old, Slot.mayQueue_of_caseState new]
    exact entry

/-! ## The issue of an exchange and grants -/

theorem Line.follows_begin {l l' : Line} (idle : l.state = .idle) (state : l'.state = .send) (x : l'.exchange ≠ none) :
    l.follows l' := Line.follows_of (.inr idle) (.inl ⟨x, by simp [state], by simp [state]⟩)

theorem issueProgram_line (st : Store) (c : CaseRecord) (sl : Slot) :
    (issueProgram st c sl).line = sl.line ∨
      (issueProgram st c sl).line.state = .send ∧ (issueProgram st c sl).line.exchange ≠ none := by
  unfold issueProgram
  cases currentStep st c sl.seq with
  | none => exact .inl rfl
  | some p =>
    dsimp only
    cases p.kindOf <;> exact .inr ⟨rfl, by simp [Line.issueHail, Line.issueAccess, Line.begin]⟩

/-- An exchange is issued on an idle line. -/
theorem Rack.line_issue (st : Store) (r : Rack) (k : SlotIx) :
    (r.slot k).line.follows ((Rack.issue st r k).slot k).line := by
  unfold Rack.issue
  cases (r.slot k).record with
  | none => exact Line.follows_refl _
  | some c =>
    dsimp only
    split
    · next may =>
      have idle : (r.slot k).line.state = .idle := by
        simp only [mayIssue, Bool.and_eq_true, beq_iff_eq] at may
        exact may.1.2
      split
      · exact Line.follows_refl _
      · rw [Rack.slot_modLine_same]
        exact Line.follows_begin idle rfl (by simp [Line.issueHail, Line.begin])
      · rw [Rack.slot_modSlot_same]
        rcases issueProgram_line st c (r.slot k) with same | ⟨state, x⟩
        · rw [same]; exact Line.follows_refl _
        · exact Line.follows_begin idle state x
    · exact Line.follows_refl _

/-- An issue changes its slot's line and sequencer alone. -/
theorem Rack.tame_issue (st : Store) (r : Rack) (k : SlotIx) : Slot.Tame (r.slot k) ((Rack.issue st r k).slot k) := by
  have line := Rack.line_issue st r k
  obtain ⟨l, run, e⟩ := Rack.slot_issue st r k
  rw [e] at line ⊢
  exact ⟨rfl, rfl, rfl, rfl, id, line⟩

theorem Rack.near_issue (st : Store) (r : Rack) (k : SlotIx) : Rack.Near k r (Rack.issue st r k) := by
  obtain ⟨wide, budget, -, -, bench, -⟩ := Rack.rest_issue st r k
  exact ⟨wide, budget, by rw [bench], fun _ h => Rack.slot_issue_ne st r h⟩

theorem Rack.issue_empty (st : Store) {r : Rack} {k : SlotIx} (h : (r.slot k).record = none) : r.issue st k = r := by
  simp [Rack.issue, h]

theorem Rack.moves_issue (st : Store) (r : Rack) (k : SlotIx) : Rack.Moves U r (r.issue st k) := by
  refine Rack.moves_of_tame (Rack.near_issue st r k) (Rack.rest_issue st r k).2.2.1 (.inr ?_) (Rack.tame_issue st r k)
  cases hc : (r.slot k).record with
  | none => exact .inr (by rw [Rack.issue_empty st hc])
  | some c => exact .inl (Slot.ne_reset_of_record hc)

theorem Rack.takeGrant_not_waiting (st : Store) {r : Rack} {k : SlotIx} (h : (r.slot k).caseState ≠ some .waiting) :
    r.takeGrant st k = r := if_neg h

/-- What the Case Table makes of a grant (R16, R22). -/
theorem Rack.keeps_takeGrant (st : Store) (r : Rack) (k : SlotIx) :
    Slot.Keeps (r.slot k) ((r.takeGrant st k).slot k) ∧
      ((r.slot k).inRun = true → ((r.takeGrant st k).slot k).inRun = true) := by
  by_cases waiting : (r.slot k).caseState = some .waiting
  · obtain ⟨c, hc, hs⟩ := Slot.record_of_caseState waiting
    unfold Rack.takeGrant
    rw [if_pos waiting]
    split
    · next on =>
      have tame := Rack.tame_issue st ((r.enter k .running).modSeq k Sequencer.startProgram) k
      have entered : (((r.enter k .running).modSeq k Sequencer.startProgram).slot k).caseState = some .running := by
        simp [Slot.caseState, hc]
      have new := tame.state.trans entered
      refine ⟨⟨fun safe => tame.railSafe (Slot.railSafe_entered waiting entered (by simp) (fun _ => ⟨fun _ => rfl, .inl on⟩)
        (fun _ => .inl rfl) safe), .inl (tame.units.trans (by simp)), .inl (tame.pool.trans ?_), ?_⟩, fun _ => ?_⟩
      · simp [Slot.suspects, hc]
      · simpa using tame.line
      · rw [Slot.inRun_of_caseState new]; rfl
    · rw [Rack.slot_enterPowering st r k c hc]
      refine ⟨⟨Slot.railSafe_entered waiting rfl rfl (fun _ => ⟨fun _ => rfl, .inr rfl⟩) (fun _ => .inl rfl), .inl rfl,
        .inl ?_, Line.follows_refl _⟩, fun _ => rfl⟩
      simp [Slot.suspects, hc]
  · rw [Rack.takeGrant_not_waiting st waiting]
    exact ⟨⟨id, .inl rfl, .inl rfl, Line.follows_refl _⟩, id⟩

/-- A grant pass is made of grants to the head (R123). -/
theorem Rack.moves_grantPassUpTo (st : Store) (n : Nat) (r : Rack) : Rack.Moves U r (r.grantPassUpTo st n) := by
  induction n generalizing r with
  | zero => exact .refl
  | succ n ih =>
    unfold Rack.grantPassUpTo
    cases hq : r.queue with
    | nil => exact .refl
    | cons e rest =>
      dsimp only
      split
      · next fits =>
        refine .trans (.single (.grant e rest _ hq fits.2 ?_ ?_ ?_ ?_)) (ih _)
        · obtain ⟨wide, budget, -, -, bench, -⟩ :=
            Rack.rest_takeGrant st (({ r with queue := rest } : Rack).setUnits e.slot e.need) e.slot
          exact ⟨wide, budget, by rw [bench]; rfl, fun j h => by simp [h]⟩
        · exact (Rack.rest_takeGrant st _ e.slot).2.2.1
        · simpa using (Rack.keeps_takeGrant st (({ r with queue := rest } : Rack).setUnits e.slot e.need) e.slot).1
        · have := (Rack.keeps_takeGrant st (({ r with queue := rest } : Rack).setUnits e.slot e.need) e.slot).2
          rw [Rack.slot_setUnits_same] at this
          exact this
      · exact .refl

theorem Rack.moves_grantPass (st : Store) (r : Rack) : Rack.Moves U r (r.grantPass st) :=
  Rack.moves_grantPassUpTo st _ r

/-- A slot whose case does not wait gains units alone in a grant pass. -/
theorem Rack.slot_grantPass_not_waiting (st : Store) {r : Rack} {k : SlotIx}
    (h : (r.slot k).caseState ≠ some .waiting) : ∃ n, (r.grantPass st).slot k = { r.slot k with units := n } := by
  suffices main : ∀ n r, (Rack.slot r k).caseState ≠ some .waiting →
      ∃ m, (Rack.grantPassUpTo st n r).slot k = { r.slot k with units := m } from main _ r h
  intro n
  induction n with
  | zero => exact fun r _ => ⟨(r.slot k).units, rfl⟩
  | succ n ih =>
    intro r h
    unfold Rack.grantPassUpTo
    cases r.queue with
    | nil => exact ⟨(r.slot k).units, rfl⟩
    | cons e rest =>
      dsimp only
      split
      · have kept : ∃ m, (Rack.takeGrant st (({ r with queue := rest } : Rack).setUnits e.slot e.need) e.slot).slot k =
            { r.slot k with units := m } := by
          by_cases same : k = e.slot
          · subst same
            rw [Rack.takeGrant_not_waiting st (by simpa [Slot.caseState] using h)]
            exact ⟨e.need, by simp⟩
          · exact ⟨(r.slot k).units, by simp [same]⟩
        obtain ⟨m, hm⟩ := kept
        obtain ⟨m', hm'⟩ := ih _ (by rw [hm]; exact h)
        exact ⟨m', by rw [hm', hm]⟩
      · exact ⟨(r.slot k).units, rfl⟩

/-! ## The end of a run -/

theorem Rack.moves_dropRun {r : Rack} {k : SlotIx} (live : U k ∨ r.slot k ≠ Slot.reset) :
    Rack.Moves U r (r.dropRun k) := by
  refine Rack.moves_of_tame ⟨rfl, rfl, rfl, fun _ h => by simp [h]⟩ rfl (live.imp_right .inl) ⟨?_, ?_, by simp, by simp, ?_, ?_⟩
  · simp [Slot.caseState]
  · simp [Slot.suspects]
  · rw [Rack.rail_dropRun]
    dsimp only
    split <;> simp_all
  · have : ((r.dropRun k).slot k).line = { (r.slot k).line.abort with sure := false } := by
      simp [Rack.dropRun, Rack.abortOff, Rack.railOff]
    rw [this]
    exact Line.follows_trans (Line.follows_abort _) (Line.follows_same rfl Iff.rfl)

theorem Rack.off_dropRun (r : Rack) (k : SlotIx) : ((r.dropRun k).slot k).rail.state.isOn = false := by
  rw [Rack.rail_dropRun]
  dsimp only
  split
  · rfl
  · next off => simpa using off

/-- A case leaves its run (R7, R126). -/
theorem Rack.moves_endRun (st : Store) {r : Rack} {k : SlotIx} {x cs : CaseState} (u : U k)
    (old : (r.slot k).caseState = some x) (out : cs.inRun = false) : Rack.Moves U r (r.endRun st k cs) := by
  have kept : (((r.dropRun k).giveBack k).slot k).caseState = some x := by
    simpa [Slot.caseState] using old
  refine (Rack.moves_dropRun (.inl u)).trans ((Rack.moves_giveBack u).trans (.trans ?_ (Rack.moves_grantPass st _)))
  refine Rack.moves_enter u kept (fun on => ?_) (fun run => by simp [out] at run) (fun units => by simp at units)
    fun queued => by simp [Rack.queued_giveBack] at queued
  rw [Rack.slot_giveBack_same] at on
  exact absurd on (by rw [r.off_dropRun k]; simp)

/-! ## The bench at a boundary -/

theorem Slot.exchange_of_boundary {a : Slot} (h : a.atBoundary = true) : a.line.exchange = none := by
  simp only [Slot.atBoundary, Bool.and_eq_true, Option.isNone_iff_eq_none] at h
  exact h.1

theorem Rack.moves_grantPending (r : Rack) : Rack.Moves U r r.grantPending := by
  unfold Rack.grantPending
  split
  · next j pending =>
    split
    · next boundary =>
      exact .single (.benchGrant j (by simp [pending]) (Slot.exchange_of_boundary boundary)
        (.inr (Rack.isPending_iff.mpr pending)))
    · exact .refl
  · exact .refl
  · exact .refl

/-! ## The stage advance (R98 to R103) -/

theorem Rack.items_stageClean (st : Store) (r : Rack) (k : SlotIx) (c : CaseRecord) :
    Rack.Items r (r.stageClean st k c) := by
  unfold Rack.stageClean
  dsimp only
  split <;> split
  · exact (Rack.items_passItem ..).trans (Rack.items_passItem ..)
  · exact Rack.items_passItem ..
  · exact Rack.items_passItem ..
  · exact .refl _

/-- Evidence leaves a case in a state other than DONE. -/
theorem Rack.Items.caseState {r r' : Rack} (h : Rack.Items r r') {k : SlotIx} {cs : CaseState}
    (old : (r.slot k).caseState = some cs) (open' : ∀ e v, cs ≠ .done e v) : (r'.slot k).caseState = some cs := by
  rcases Slot.evidence_sameState (h.evidence.2.2.2.2.2.2 k) with same | ⟨e, v, v', done, -⟩
  · rw [same, old]
  · rw [old] at done
    exact absurd (Option.some.inj done) (open' e v)

theorem Rack.Items.line {r r' : Rack} (h : Rack.Items r r') (k : SlotIx) : (r'.slot k).line = (r.slot k).line := by
  rw [(h.evidence.2.2.2.2.2.2 k).1]

/-- The margin of a new stay may make the rail of a RUNNING case rise again (R145). -/
theorem Rack.moves_nextStay (st : Store) {r : Rack} {k : SlotIx} {m : Model} {p : Position} (u : U k)
    (running : (r.slot k).caseState = some .running) : Rack.Moves U r (r.nextStay st k m p) := by
  refine (Rack.moves_beginStay st (p := p) u).trans (.trans ?_ (Rack.moves_modWatch u))
  have running' : ((r.beginStay st k p).slot k).caseState = some .running := by
    rw [Rack.slot_beginStay_same]
    obtain ⟨c, hc, hs⟩ := Slot.record_of_caseState running
    simp [Slot.caseState, hc, hs]
  have new : (((r.beginStay st k p).modRail k (Rail.newMargin (m.stage p.stage).margin)).slot k).caseState =
      some .running := by rw [Rack.slot_modRail_same]; exact running'
  refine .single (.slot k _ (Rack.near_modSlot ..) rfl ⟨Slot.railSafe_entered running' new (by simp)
    (fun _ => ⟨id, .inr rfl⟩) (fun _ => .inl rfl), .inl (by simp), .inl (by simp [Slot.suspects]), ?_⟩ ?_ ?_ (.inl u))
  · simpa using Line.follows_refl _
  · intro _ _; rw [Slot.inRun_of_caseState new]; rfl
  · rw [Slot.mayQueue_of_caseState running', Slot.mayQueue_of_caseState new]; exact fun _ h => h

theorem Rack.caseState_askUnits (r : Rack) (k : SlotIx) (need : Nat) :
    ((r.askUnits k need).slot k).caseState = (r.slot k).caseState := by
  obtain ⟨-, n, own⟩ := r.askUnits_spec k need
  rw [own]; rfl

theorem Rack.inRun_setUnits_zero (r : Rack) (k : SlotIx) : ((r.setUnits k 0).slot k).units = 0 := by simp

/-- The budget step of an advance and its outcome (R103, R125). -/
theorem Rack.acts_budgetStep (st : Store) {r : Rack} {k : SlotIx} {need : Nat} (u : U k)
    (running : (r.slot k).caseState = some .running) :
    Rack.Acts U r ((r.budgetStep st k need).afterBudget k) := by
  have running₀ : ((r.setUnits k 0).slot k).caseState = some .running := by simpa [Slot.caseState] using running
  obtain ⟨c, hc, -⟩ := Slot.record_of_caseState running₀
  have running₁ := (Rack.caseState_askUnits (r.setUnits k 0) k need).trans running₀
  obtain ⟨n, own⟩ := Rack.slot_grantPass_not_waiting st (r := (r.setUnits k 0).askUnits k need) (k := k) (by simp [running₁])
  have running₂ : ((r.budgetStep st k need).slot k).caseState = some .running := by
    unfold Rack.budgetStep
    rw [own]
    exact running₁
  refine (Rack.moves_release (.inl u)).acts.tail (.request k need (r.budgetStep st k need) _ (by rw [hc]; rfl)
    (by rw [Slot.mayQueue_of_caseState running₀]; rfl) (.inl (by simp)) (Rack.moves_grantPass st _) ?_ ?_ ?_ ?_ ?_)
  · unfold Rack.afterBudget
    split <;> exact ⟨rfl, rfl, rfl, fun _ h => by simp [h]⟩
  · unfold Rack.afterBudget
    split <;> rfl
  · unfold Rack.afterBudget
    obtain ⟨c₂, hc₂, -⟩ := Slot.record_of_caseState running₂
    split
    · refine ⟨Slot.railSafe_entered (cs := .waiting) running₂ (by simp [Slot.caseState, hc₂]) (by simp)
        (fun _ => ⟨fun _ => rfl, .inr rfl⟩) (fun _ => .inl rfl), .inl (by simp), .inl (by simp [Slot.suspects, hc₂]), ?_⟩
      simpa using Line.follows_refl _
    · simpa using (⟨id, .inl rfl, .inl rfl, Line.follows_refl _⟩ :
        Slot.Keeps ((r.budgetStep st k need).slot k)
          { (r.budgetStep st k need).slot k with seq := ((r.budgetStep st k need).slot k).seq.startProgram })
  · unfold Rack.afterBudget
    obtain ⟨c₂, hc₂, hs₂⟩ := Slot.record_of_caseState running₂
    split <;> simp [Slot.inRun, hc₂, hs₂, CaseState.inRun]
  · intro queued
    unfold Rack.afterBudget
    obtain ⟨c₂, hc₂, -⟩ := Slot.record_of_caseState running₂
    rw [if_pos queued]
    simp [Slot.mayQueue, Slot.caseState, hc₂]

theorem Rack.moves_endProfile (st : Store) {r : Rack} {k : SlotIx} {cs : CaseState} (u : U k)
    (old : (r.slot k).caseState = some cs) : Rack.Moves U r (r.endProfile st k) := by
  obtain ⟨c, hc, rfl⟩ := Slot.record_of_caseState old
  exact (Rack.moves_modStay u).trans (Rack.moves_endRun st (x := c.state) u (by simp [Slot.caseState, hc]) rfl)

/-- The stage advance of a RUNNING case (R100 to R103). -/
theorem Rack.acts_stageAdvance (st : Store) {r : Rack} {k : SlotIx} (u : U k)
    (running : (r.slot k).caseState = some .running) : Rack.Acts U r (r.stageAdvance st k) := by
  obtain ⟨c, hc, -⟩ := Slot.record_of_caseState running
  have clean := r.items_stageClean st k c
  have running₁ := clean.caseState running (by simp)
  unfold Rack.stageAdvance
  simp only [hc]
  split
  · exact Rack.Moves.acts (clean.moves.trans (Rack.moves_endProfile st u running₁))
  · next p _ =>
    have running₂ : (((r.stageClean st k c).nextStay st k (caseModel st c) p).slot k).caseState = some .running := by
      obtain ⟨c₁, hc₁, hs₁⟩ := Slot.record_of_caseState running₁
      simp [Rack.nextStay, Slot.caseState, hc₁, hs₁]
    exact (Rack.Moves.acts (clean.moves.trans (Rack.moves_nextStay st u running₁))).trans
      (Rack.acts_budgetStep st u running₂)

theorem Rack.acts_takeOrHoldAdvance (st : Store) {r : Rack} {k : SlotIx} (u : U k) :
    Rack.Acts U r (r.takeOrHoldAdvance st k) := by
  unfold Rack.takeOrHoldAdvance
  dsimp only
  split
  · split
    · next h => exact Rack.acts_stageAdvance st u h.1
    · exact (Rack.moves_modStay u).acts
  · exact .refl

/-- What the sequencer of a slot does next (R182, R183). -/
theorem Rack.acts_proceed (st : Store) {r : Rack} {k : SlotIx} (u : U k) : Rack.Acts U r (r.proceed st k) :=
  (Rack.acts_takeOrHoldAdvance st u).trans (Rack.Moves.acts
    ((Rack.moves_grantPending _).trans ((Rack.moves_issue st _ k).trans (Rack.moves_checkQuiesced _))))

/-! ## Faults of a run -/

theorem Rack.acts_endRun_proceed (st : Store) {r : Rack} {k : SlotIx} {x cs : CaseState} (u : U k)
    (old : (r.slot k).caseState = some x) (out : cs.inRun = false) :
    Rack.Acts U r ((r.endRun st k cs).proceed st k) :=
  (Rack.moves_endRun st u old out).acts.trans (Rack.acts_proceed st u)

theorem Rack.acts_faultCase (st : Store) {r : Rack} {k : SlotIx} {x : CaseState} (cause : FaultCause) (u : U k)
    (old : (r.slot k).caseState = some x) : Rack.Acts U r (r.faultCase st k cause) :=
  Rack.acts_endRun_proceed st u old rfl

theorem Rack.moves_railFail (st : Store) {r : Rack} {k : SlotIx} (y : Symptom) (u : U k) :
    Rack.Moves U r (r.railFail st k y) := by
  unfold Rack.railFail
  split
  · exact .refl
  · exact (Rack.items_failNow ..).moves.trans (Rack.moves_modStay u)

theorem Rack.moves_hangFail (st : Store) {r : Rack} {k : SlotIx} (y : Symptom) (u : U k) :
    Rack.Moves U r (r.hangFail st k y) := by
  unfold Rack.hangFail
  split
  · exact .refl
  · exact (Rack.items_failNow ..).moves.trans (Rack.moves_modStay u)

theorem Slot.caseState_of_takesTrip {a : Slot} (h : a.takesTrip = true) : ∃ x, a.caseState = some x ∧ x.powers = true := by
  cases hs : a.caseState with
  | none => simp [Slot.takesTrip, hs] at h
  | some x => exact ⟨x, rfl, by rwa [Slot.takesTrip_of_caseState hs] at h⟩

/-- A trip (R142, R20). -/
theorem Rack.acts_trip (st : Store) {r : Rack} {k : SlotIx} (y : Symptom) (u : U k) :
    Rack.Acts U r (r.trip st k y) := by
  have cut : Rack.Moves U r ((r.modRail k fun l => { l with state := .tripped, rise := 0, sag := 0 }).modLine k fun l =>
      { l with sure := false }) :=
    (Rack.moves_modRail u (by simp [RailState.isOn])).trans (Rack.moves_modLine u (Line.follows_same rfl Iff.rfl))
  unfold Rack.trip
  extract_lets off counted fault
  have count : Rack.Moves U off counted := Rack.moves_modCase u (fun _ => rfl) fun _ => rfl
  refine (Rack.Moves.acts (.trans cut (count.trans (Rack.moves_railFail st y u)))).trans ?_
  split
  · next takes =>
    obtain ⟨x, hx, -⟩ := Slot.caseState_of_takesTrip takes
    exact Rack.acts_faultCase st .rail u hx
  · exact .refl

theorem Rack.moves_abortOff {r : Rack} {k : SlotIx} (u : U k) : Rack.Moves U r (r.abortOff k) :=
  (Rack.moves_modLine u (Line.follows_abort _)).trans (Rack.moves_modSeq u)

theorem Rack.moves_railOff {r : Rack} {k : SlotIx} (u : U k) : Rack.Moves U r (r.railOff k) := by
  refine (Rack.moves_modRail u ?_).trans (Rack.moves_modLine u (Line.follows_same rfl Iff.rfl))
  dsimp only
  split
  · simp [RailState.isOn]
  · exact id

/-- The entry of a slot is marked, in its place (R121). -/
theorem Rack.moves_restEntry (r : Rack) (k : SlotIx) : Rack.Moves U r (r.restEntry k) := by
  have slot : ∀ e : QueueEntry, (if e.slot = k then { e with throughRest := true } else e).slot = e.slot := fun e => by
    split <;> rfl
  have priority : ∀ e : QueueEntry, (if e.slot = k then { e with throughRest := true } else e).priority = e.priority :=
    fun e => by split <;> rfl
  refine .single (.queue _ (fun e he => ?_) (fun nodup => ?_) fun order => ?_)
  · obtain ⟨e', he', rfl⟩ := List.mem_map.mp he
    exact ⟨e', he', (slot e').symm⟩
  · rw [List.map_map]
    exact (List.map_congr_left fun e _ => slot e) ▸ nodup
  · rw [List.pairwise_map]
    simpa only [priority] using order

/-- A case of a run enters RESTING (R21, R22). -/
theorem Rack.moves_enterRest {r : Rack} {k : SlotIx} {x : CaseState} (u : U k)
    (old : (r.slot k).caseState = some x) (run : x.inRun = true) : Rack.Moves U r (r.enterRest k) := by
  refine (Rack.moves_abortOff u).trans ((Rack.moves_railOff u).trans ((Rack.moves_modRail u id).trans
    ((Rack.moves_modWatch u).trans ((Rack.moves_restEntry _ k).trans (Rack.moves_enter (x := x) u ?_ (fun on => ?_)
      (fun _ => .inl run) (fun _ _ => rfl) fun _ _ => rfl)))))
  · simpa [Rack.restEntry, Rack.railOff, Rack.abortOff, Slot.caseState] using old
  · simp only [Rack.restEntry, Rack.slot_sameSlots, Rack.slot_modWatch_same, Rack.slot_modRail_same, Rack.railOff,
      Rack.slot_modLine_same] at on
    split at on <;> simp_all [RailState.isOn]

theorem Slot.caseState_of_takesHang {a : Slot} (h : a.takesHang = true) : ∃ x, a.caseState = some x ∧ x.inRun = true := by
  unfold Slot.takesHang at h
  split at h
  all_goals first | (next hs => exact ⟨_, hs, rfl⟩) | simp at h

/-- A hang or a boot failure is reported (R21). -/
theorem Rack.acts_hangReport (st : Store) {r : Rack} {k : SlotIx} (u : U k) : Rack.Acts U r (r.hangReport st k) := by
  unfold Rack.hangReport
  cases hc : (r.slot k).record with
  | none => exact .refl
  | some c =>
    dsimp only
    split
    · next takes =>
      obtain ⟨x, hx, run⟩ := Slot.caseState_of_takesHang takes
      have kept : ∀ n : CaseRecord → Nat, ((r.modCase k fun c => { c with strikes := n c }).slot k).caseState = some x :=
        fun n => by simpa [Slot.caseState, hc] using hx
      have struck : ∀ n : CaseRecord → Nat, Rack.Moves U r (r.modCase k fun c => { c with strikes := n c }) := fun n =>
        Rack.moves_modCase u (fun _ => rfl) fun _ => rfl
      split
      · exact (struck fun c => c.strikes + 1).acts.trans ((Rack.moves_enterRest u (kept fun c => c.strikes + 1) run).acts.trans
          (Rack.acts_proceed st u))
      · exact (struck fun c => bump 15 c.strikes).acts.trans
          (Rack.acts_faultCase st .hang u (kept fun c => bump 15 c.strikes))
    · exact .refl

/-! ## HAIL outcomes (R17, R22, R190) -/

theorem Rack.acts_takeIdentity (st : Store) {r : Rack} {k : SlotIx} (id : Half) (u : U k) :
    Rack.Acts U r (r.takeIdentity st k id) := by
  unfold Rack.takeIdentity
  cases hc : (r.slot k).record with
  | none => exact .refl
  | some c =>
    dsimp only
    split
    · next powering =>
      have old : (r.slot k).caseState = some .powering := by simp [Slot.caseState, hc, powering]
      split
      · have old' : ((r.modCase k fun c => { c with boardId := some id }).slot k).caseState = some .powering := by
          simpa [Slot.caseState, hc] using powering
        refine (Rack.moves_modCase (f := fun c => { c with boardId := some id }) u (fun _ => rfl) fun _ => rfl).acts.trans
          (Rack.Moves.acts ?_)
        split
        · exact (Rack.moves_enter u old' (fun _ _ => rfl) (fun _ => .inl rfl) (fun _ _ => rfl) fun _ _ => rfl).trans
            ((Rack.moves_modSeq u).trans (Rack.moves_modWatch u))
        · next free =>
          exact (Rack.moves_enter u old' (fun _ _ => rfl) (fun _ => .inl rfl) (fun _ _ => rfl)
            fun queued => absurd queued free).trans ((Rack.moves_modSeq u).trans (Rack.moves_modWatch u))
      · exact (Rack.moves_endRun st u old rfl).acts
    · exact .refl

/-! ## Results of the sense line -/

theorem Rack.items_judgeResult (st : Store) (r : Rack) (k : SlotIx) (c : CaseRecord) (res : ResultRecord) :
    Rack.Items r (r.judgeResult st k c res) := by
  unfold Rack.judgeResult
  split
  · unfold Rack.judgeOk
    split
    · exact Rack.items_passItem ..
    · unfold Rack.judgePeek
      split
      · exact .refl r
      · split
        · exact .refl r
        · split
          · exact Rack.items_passItem ..
          · exact Rack.items_failNow ..
    · exact .refl r
    · exact .refl r
  · exact Rack.items_failNow ..
  · exact Rack.items_failNow ..
  · exact Rack.items_failNow ..
  · exact .refl r

theorem Rack.items_handResult (st : Store) (r : Rack) (k : SlotIx) (res : ResultRecord) :
    Rack.Items r (r.handResult st k res) := by
  unfold Rack.handResult
  split
  · exact .refl r
  · exact Rack.items_judgeResult ..

/-- A failed attempt (R166). -/
theorem Rack.moves_failAttempt (st : Store) {r : Rack} {k : SlotIx} {x y : Exchange} (res : ExchangeResult) (u : U k)
    (flight : (r.slot k).line.exchange = some y) : Rack.Moves U r (r.failAttempt st k x res) := by
  have items := r.items_handResult st k (r.resultOf st k x res)
  have flight' := items.line k ▸ flight
  exact items.moves.trans (Rack.moves_modLine u
    (Line.follows_of (.inl (by simp [flight'])) (.inl ⟨by simp [Line.fail, flight'], by simp [Line.fail], by simp [Line.fail]⟩)))

theorem Rack.moves_moveCounter (st : Store) {r : Rack} {k : SlotIx} (u : U k) : Rack.Moves U r (r.moveCounter st k) := by
  unfold Rack.moveCounter
  split
  · exact .refl
  · dsimp only
    split
    · exact (Rack.moves_modSeq u).trans (Rack.moves_modCase u (fun _ => rfl) fun _ => rfl)
    · exact Rack.moves_modSeq u

theorem Line.follows_finish {l l' : Line} {x : Exchange} (flight : l.exchange = some x) : l.follows l'.finish :=
  Line.follows_of (.inl (by simp [flight])) (.inr ⟨rfl, rfl⟩)

/-- An exchange ends OK (R157, R164). -/
theorem Rack.acts_exchangeOk (st : Store) {r : Rack} {k : SlotIx} {x y : Exchange} (u : U k)
    (flight : (r.slot k).line.exchange = some y) : Rack.Acts U r (r.exchangeOk st k x) := by
  have items := r.items_handResult st k (r.resultOf st k x .ok)
  have flight' := items.line k ▸ flight
  unfold Rack.exchangeOk
  extract_lets res done next
  have ended : Rack.Moves U r done := items.moves.trans (Rack.moves_modLine u (Line.follows_finish flight'))
  refine ended.acts.trans (Relation.ReflTransGen.trans (b := next) ?_ (Rack.acts_proceed st u))
  show Rack.Acts U done (if _ then _ else _)
  split
  · unfold Rack.offerIdentity
    split
    · exact .refl
    · exact Rack.acts_takeIdentity st _ u
  · exact (Rack.moves_moveCounter st u).acts

/-- An exchange ends with a failed result (R166). -/
theorem Rack.acts_exchangeFailed (st : Store) {r : Rack} {k : SlotIx} {y : Exchange} (u : U k)
    (flight : (r.slot k).line.exchange = some y) : Rack.Acts U r (r.exchangeFailed st k) := by
  unfold Rack.exchangeFailed
  extract_lets done next
  have ended : Rack.Moves U r done := Rack.moves_modLine u (Line.follows_finish flight)
  refine ended.acts.trans (Relation.ReflTransGen.trans (b := next) ?_ (Rack.acts_proceed st u))
  show Rack.Acts U done (if _ then _ else _)
  split
  · exact (Rack.moves_modSeq u).acts
  · exact (Rack.moves_moveCounter st u).acts

/-! ## The rail (R138, R139) -/

theorem Rack.acts_railGood (st : Store) {r : Rack} {k : SlotIx} (u : U k) (on : (r.slot k).rail.state.isOn = true) :
    Rack.Acts U r (r.railGood st k) := by
  unfold Rack.railGood
  extract_lets good
  have risen : Rack.Moves U r good := Rack.moves_modRail u fun _ => on
  refine risen.acts.trans ?_
  split
  · exact (Rack.Moves.acts ((Rack.moves_modSeq u).trans (Rack.moves_modWatch u))).trans (Rack.acts_proceed st u)
  · exact .refl

theorem Rack.moves_railSag (st : Store) {r : Rack} {k : SlotIx} (u : U k) (on : (r.slot k).rail.state.isOn = true) :
    Rack.Moves U r (r.railSag st k) := by
  unfold Rack.railSag
  extract_lets sagged
  have first : Rack.Moves U r sagged := Rack.moves_modRail u fun _ => on
  have counted : Rack.Moves U sagged (sagged.modCase k fun c => { c with sagCount := bump Config.max16 c.sagCount }) :=
    Rack.moves_modCase u (fun _ => rfl) fun _ => rfl
  exact first.trans (counted.trans (Rack.moves_railFail st .sag u))

/-! ## The expiries of a rack tick -/

/-- A case enters POWERING and its rail rises (R136). -/
theorem Rack.moves_enterPowering (st : Store) {r : Rack} {k : SlotIx} {x : CaseState} (u : U k)
    (old : (r.slot k).caseState = some x) (latch : x.inRun = true ∨ (r.slot k).latchClosed = true) : Rack.Moves U r (r.enterPowering st k) := by
  obtain ⟨c, hc, rfl⟩ := Slot.record_of_caseState old
  obtain ⟨wide, budget, queue, -, bench, -⟩ := Rack.rest_enterPowering st r k
  refine .single (.slot k _ ⟨wide, budget, by rw [bench], fun _ h => Rack.slot_enterPowering_ne st r h⟩ queue ?_ ?_ ?_ (.inl u))
  all_goals rw [Rack.slot_enterPowering st r k c hc]
  · exact ⟨Slot.railSafe_entered old rfl rfl (fun _ => ⟨fun _ => rfl, .inr rfl⟩) (fun _ => latch), .inl rfl,
      .inl (by simp [Slot.suspects, hc]), Line.follows_refl _⟩
  · exact fun _ _ => rfl
  · exact fun _ _ => rfl

theorem Rack.acts_expire (st : Store) {r : Rack} {k : SlotIx} (e : Expiry) (u : U k) (due : r.due st k e = true) :
    Rack.Acts U r (r.expire st k e) := by
  cases e with
  | stageMatch =>
    have drained : Rack.Acts U r ((r.modStay k fun y => { y with draining := true }).proceed st k) :=
      (Rack.moves_modStay u).acts.trans (Rack.acts_proceed st u)
    refine drained.trans ?_
    simp only [Rack.expire, Rack.fireMatch]
    split
    · exact (Rack.moves_modWatch u).acts
    · exact .refl
  | heaterSwitch =>
    have switched : Rack.Moves U r (r.fireSwitch k) := Rack.moves_modStay u
    exact switched.acts
  | rise => exact Rack.acts_trip st .norise u
  | sag => exact Rack.acts_trip st .trip u
  | rest =>
    have resting : (r.slot k).caseState = some .resting := by
      simp only [Rack.due, Rack.restDue] at due
      split at due
      · simp at due
      · simp only [Bool.and_eq_true, beq_iff_eq] at due; exact due.2
    have stopped : Rack.Moves U r (r.modRail k fun l => { l with rest := none }) := Rack.moves_modRail u id
    exact Rack.Moves.acts (stopped.trans (Rack.moves_enterPowering st u (x := .resting)
      (by rw [Rack.slot_modRail_same]; exact resting) (.inl rfl)))
  | boot =>
    exact (Rack.Moves.acts (.trans (Rack.moves_modWatch u) (Rack.moves_hangFail st .noboot u))).trans
      (Rack.acts_hangReport st u)
  | hang =>
    exact (Rack.Moves.acts (.trans (Rack.moves_modWatch u) (Rack.moves_hangFail st .hang u))).trans
      (Rack.acts_hangReport st u)
  | tickWait => exact (Rack.moves_modSeq u).acts.trans (Rack.acts_proceed st u)

theorem Rack.acts_takeExpiry (st : Store) {r : Rack} {k : SlotIx} (e : Expiry) (u : U k) :
    Rack.Acts U r (r.takeExpiry st k e) := by
  unfold Rack.takeExpiry
  split
  · next due => exact Rack.acts_expire st e u due
  · exact .refl

/-- Nothing is due in a slot at its values after reset. -/
theorem Rack.ne_reset_of_due (st : Store) {r : Rack} {k : SlotIx} {e : Expiry} (due : r.due st k e = true) :
    r.slot k ≠ Slot.reset := by
  intro h
  cases e <;> simp [Rack.due, Rack.matchDue, Rack.switchDue, Rack.riseDue, Rack.sagDue, Rack.restDue, Rack.bootDue,
    Rack.hangDue, Rack.waitDue, h, Slot.reset, Rail.reset, Watch.reset, Sequencer.reset] at due

theorem acts_foldl {β : Type} (f : Rack → β → Rack) (l : List β)
    (step : ∀ b ∈ l, ∀ r, Rack.Acts U r (f r b)) (r : Rack) : Rack.Acts U r (l.foldl f r) := by
  induction l generalizing r with
  | nil => exact .refl
  | cons b l ih => exact (step b (.head _) r).trans (ih (fun b hb => step b (.tail _ hb)) _)

/-- The expiries still due are taken (log entry 3). -/
theorem Rack.acts_settle (st : Store) (r : Rack) : Rack.Acts r.reachable r (r.settle st) := by
  refine acts_foldl _ _ (fun ke hke r' => Rack.acts_takeExpiry st ke.2 (.inr (.inl ?_))) r
  obtain ⟨k, -, hk⟩ := List.mem_flatMap.mp hke
  obtain ⟨e, he, rfl⟩ := List.mem_map.mp hk
  exact Rack.ne_reset_of_due st (List.mem_filter.mp he).2

end Sys2Proof.Machine
end

section
/-! The requests and the events of the rack, as the changes that they are made of. -/

namespace Sys2Proof.Machine

variable {U : SlotIx → Prop}

/-! ## The case requests -/

theorem Slot.off_of_empty {a : Slot} (empty : a.record = none) (safe : a.railSafe) : a.rail.state.isOn = false := by
  rw [Bool.eq_false_iff]
  intro on
  have := (safe.1 on).1
  simp [Slot.takesTrip, Slot.caseState, empty] at this

/-- CASE OPEN puts a record without suspects into an EMPTY slot (R10). -/
theorem Rack.moves_openCase {r : Rack} {k : SlotIx} {c : CaseRecord} (u : U k) (empty : (r.slot k).record = none)
    (pool : c.suspects = []) : Rack.Moves U r (r.openCase k c) := by
  have own : (r.openCase k c).slot k = { r.slot k with
      record := some { c with state := .ready }
      stamp := (r.slot k).stamp + 1
      line := { (r.slot k).line with pointer := 0, sure := false }
      seq := { (r.slot k).seq with step := 1, index := 0, runStart := none, lastExchange := none } } := by
    simp [Rack.openCase]
  have idle : (r.slot k).inRun = false := by simp [Slot.inRun, empty]
  have unqueued : (r.slot k).mayQueue = false := by simp [Slot.mayQueue, Slot.caseState, empty]
  refine .single (.slot k _ ⟨rfl, rfl, rfl, fun _ h => by simp [Rack.openCase, h]⟩ rfl ?_ ?_ ?_ (.inl u))
  all_goals rw [own]
  · refine ⟨fun safe => ?_, .inl rfl, .inr (by simp [Slot.suspects, pool]), Line.follows_same rfl Iff.rfl⟩
    exact ⟨fun on => by simp [Slot.off_of_empty empty safe] at on, fun run => by simp [Slot.inRun, CaseState.inRun] at run⟩
  · exact fun _ run => by simp [idle] at run
  · exact fun _ may => by simp [unqueued] at may

theorem Rack.queue_requestUnits_queued (st : Store) (r : Rack) (k : SlotIx) (need : Nat) :
    r.requestUnits st k need = r.askUnits k need ∨ r.requestUnits st k need = (r.askUnits k need).grantPass st := by
  unfold Rack.requestUnits
  dsimp only
  split
  · exact .inr rfl
  · exact .inl rfl

/-- A case that is in no run asks for its units and enters WAITING or POWERING (R11, R14, R122). -/
theorem Rack.acts_beginRun (st : Store) {r : Rack} {k : SlotIx} {x : CaseState} (u : U k)
    (old : (r.slot k).caseState = some x) (idle : x.inRun = false) (closed : (r.slot k).latchClosed = true) :
    Rack.Acts U r (r.beginRun st k) := by
  have kept : ((r.modCase k fun c => { c with strikes := 0 }).slot k).caseState = some x := by
    obtain ⟨c, hc, hs⟩ := Slot.record_of_caseState old
    simp [Slot.caseState, hc, hs]
  have struck : Rack.Moves U r (r.modCase k fun c => { c with strikes := 0 }) := Rack.moves_modCase u (fun _ => rfl) fun _ => rfl
  refine struck.acts.trans ?_
  have latch₁ : ((r.modCase k fun c => { c with strikes := 0 }).slot k).latchClosed = true := by simpa using closed
  unfold Rack.beginRun
  generalize (r.modCase k fun c => { c with strikes := 0 }) = r₁ at *
  obtain ⟨c, hc, -⟩ := Slot.record_of_caseState kept
  have not_waiting : x ≠ .waiting := by rintro rfl; simp [CaseState.inRun] at idle
  have asked := (Rack.caseState_askUnits r₁ k (r.stage st k).units).trans kept
  have mid : ∃ n, (r₁.requestUnits st k (r.stage st k).units).slot k = { r₁.slot k with units := n } := by
    obtain ⟨-, n, own⟩ := r₁.askUnits_spec k (r.stage st k).units
    rcases r₁.queue_requestUnits_queued st k (r.stage st k).units with e | e
    · exact ⟨n, by rw [e, own]⟩
    · obtain ⟨m, own'⟩ := Rack.slot_grantPass_not_waiting st (k := k) (by rw [asked]; simpa using not_waiting)
      exact ⟨m, by rw [e, own', own]⟩
  have pass : Rack.Moves U (r₁.askUnits k (r.stage st k).units) (r₁.requestUnits st k (r.stage st k).units) := by
    rcases r₁.queue_requestUnits_queued st k (r.stage st k).units with e | e <;> rw [e]
    exact Rack.moves_grantPass st _
  obtain ⟨n, own⟩ := mid
  have hc₂ : ((r₁.requestUnits st k (r.stage st k).units).slot k).record = some c := by rw [own]; exact hc
  have kept₂ : ((r₁.requestUnits st k (r.stage st k).units).slot k).caseState = some x := by rw [own]; exact kept
  have latch₂ : ((r₁.requestUnits st k (r.stage st k).units).slot k).latchClosed = true := by rw [own]; exact latch₁
  generalize r₁.requestUnits st k (r.stage st k).units = r₂ at *
  refine .single (.request k _ r₂ _ (by rw [hc]; rfl)
    (by rw [Slot.mayQueue_of_caseState kept]; exact CaseState.queues_of_not_inRun idle)
    (.inr (by rw [Slot.inRun_of_caseState kept]; exact idle)) pass ?_ ?_ ?_ ?_ ?_)
  · dsimp only
    split
    · exact ⟨rfl, rfl, rfl, fun _ h => by simp [h]⟩
    · obtain ⟨wide, budget, -, -, bench, -⟩ := Rack.rest_enterPowering st r₂ k
      exact ⟨wide, budget, by rw [bench], fun _ h => Rack.slot_enterPowering_ne st r₂ h⟩
  · dsimp only
    split
    · rfl
    · exact (Rack.rest_enterPowering st r₂ k).2.2.1
  · dsimp only
    split
    · refine ⟨Slot.railSafe_entered (cs := .waiting) kept₂ (by simp [Slot.caseState, hc₂]) (by simp)
        (fun _ => ⟨fun _ => rfl, .inr rfl⟩) (fun _ => .inr latch₂), .inl (by simp), .inl (by simp [Slot.suspects, hc₂]), ?_⟩
      simpa using Line.follows_refl _
    · rw [Rack.slot_enterPowering st r₂ k c hc₂]
      exact ⟨Slot.railSafe_entered kept₂ rfl rfl (fun _ => ⟨fun _ => rfl, .inr rfl⟩) (fun _ => .inr latch₂), .inl rfl,
        .inl (by simp [Slot.suspects, hc₂]), Line.follows_refl _⟩
  · dsimp only
    split
    · simp [Slot.inRun, hc₂, CaseState.inRun]
    · rw [Rack.slot_enterPowering st r₂ k c hc₂]; rfl
  · intro queued
    simp [queued, Slot.mayQueue, Slot.caseState, hc₂]

theorem Rack.acts_resumePaused (st : Store) {r : Rack} {k : SlotIx} (u : U k)
    (old : (r.slot k).caseState = some .paused) : Rack.Acts U r (r.resumePaused st k) := by
  have kept : ((r.modCase k fun c => { c with strikes := 0 }).slot k).caseState = some .paused := by
    obtain ⟨c, hc, hs⟩ := Slot.record_of_caseState old
    simp [Slot.caseState, hc, hs]
  have struck : Rack.Moves U r (r.modCase k fun c => { c with strikes := 0 }) := Rack.moves_modCase u (fun _ => rfl) fun _ => rfl
  have entered := Rack.moves_enter (cs := .running) u kept (fun _ _ => rfl) (fun _ => .inl rfl) (fun _ _ => rfl)
    fun _ h => by simp [CaseState.queues] at h
  unfold Rack.resumePaused
  exact struck.acts.trans (entered.acts.trans (Rack.acts_proceed st u))

theorem Rack.moves_untrip {r : Rack} {k : SlotIx} (u : U k) : Rack.Moves U r (r.untrip k) := by
  refine Rack.moves_modRail u ?_
  dsimp only
  split
  · simp [RailState.isOn]
  · exact id

theorem Rack.acts_resumeFaulted (st : Store) {r : Rack} {k : SlotIx} {c c₀ : CaseRecord} {f : FaultCause} (u : U k)
    (hc : (r.slot k).record = some c) (old : c.state = .faulted f) (closed : (r.slot k).latchClosed = true) :
    Rack.Acts U r (r.resumeFaulted st k c₀) := by
  refine (Rack.Moves.acts (.trans (Rack.moves_beginStay st u) (Rack.moves_untrip u))).trans
    (Rack.acts_beginRun st (x := .faulted f) u ?_ rfl ?_)
  · simp [Slot.caseState, hc, old]
  · simpa using closed

theorem Rack.acts_stopCase (st : Store) {r : Rack} {k : SlotIx} {c : CaseRecord} (u : U k)
    (hc : (r.slot k).record = some c) : Rack.Acts U r (r.stopCase st k) := by
  unfold Rack.stopCase
  extract_lets stayed
  have stay : Rack.Moves U r stayed := .trans (Rack.moves_untrip u) (Rack.moves_modStay u)
  have old : (stayed.slot k).caseState = some c.state := by simp [stayed, Slot.caseState, hc]
  exact stay.acts.trans (Rack.acts_endRun_proceed st u old rfl)

/-- CASE CLOSE takes a record that is in no run (R27). -/
theorem Rack.moves_closeCase {r : Rack} {k : SlotIx} {c : CaseRecord} (u : U k) (hc : (r.slot k).record = some c)
    (out : c.state.inRun = false) : Rack.Moves U r (r.closeCase k) := by
  refine (Rack.moves_untrip u).trans (.trans ?_ (.trans (Rack.moves_stamp u) (Rack.moves_noticeSlot _ k)))
  have old : ((r.untrip k).slot k).caseState = some c.state := by simp [Slot.caseState, hc]
  refine .single (.slot k _ (Rack.near_modSlot ..) rfl ?_ ?_ ?_ (.inl u))
  all_goals rw [Rack.slot_modSlot_same]
  · refine ⟨fun safe => ⟨fun on => ?_, fun run => by simp [Slot.inRun] at run⟩, .inl rfl, .inr rfl,
      Line.follows_same rfl Iff.rfl⟩
    have := (safe.1 on).1
    rw [Slot.takesTrip_of_caseState old, CaseState.powers_of_not_inRun out] at this
    simp at this
  · rw [Slot.inRun_of_caseState old, out]; simp
  · rw [Slot.mayQueue_of_caseState old, CaseState.queues_of_not_inRun out]; simp

/-- A priority change moves an entry (R128). -/
theorem Rack.moves_moveEntry (r : Rack) (k : SlotIx) (p : Priority) : Rack.Moves U r (r.moveEntry k p) := by
  unfold Rack.moveEntry
  split
  · exact .refl
  · next e he =>
    have mem := List.mem_of_find?_eq_some he
    have slot : e.slot = k := by simpa using List.find?_some he
    have perm := perm_joinQueue (q := r.queue.filter fun e => e.slot != k) { e with priority := p }
    refine .single (.queue _ (fun x hx => ?_) (fun nodup => ?_) fun order => rushFirst_joinQueue _ (order.filter _))
    · rcases List.mem_cons.mp (perm.subset hx) with rfl | hx
      · exact ⟨e, mem, rfl⟩
      · exact ⟨x, (List.mem_filter.mp hx).1, rfl⟩
    · rw [(perm.map _).nodup_iff, List.map_cons, List.nodup_cons]
      refine ⟨fun bad => ?_, nodup.sublist (List.filter_sublist.map _)⟩
      obtain ⟨x, hx, same⟩ := List.mem_map.mp bad
      have := (List.mem_filter.mp hx).2
      simp [same, slot] at this

theorem Rack.moves_amendCase (st : Store) {r : Rack} {k : SlotIx} {c : CaseRecord} {a : CaseAmendArgs} (u : U k) :
    Rack.Moves U r (r.amendCase st k c a) := by
  unfold Rack.amendCase
  extract_lets amended
  have first : Rack.Moves U r amended :=
    .trans (Rack.moves_modCase (f := CaseRecord.amend a) u (fun _ => rfl) fun _ => rfl) (Rack.moves_stamp u)
  split
  · exact first
  · split
    · exact first.trans (.trans (Rack.moves_moveEntry _ k _) (Rack.moves_grantPass st _))
    · exact first

/-- REWORK (R57, R58). -/
theorem Rack.moves_reworkCase (st : Store) {r : Rack} {k : SlotIx} {c : CaseRecord} {t : ReworkTarget} (u : U k)
    (hc : (r.slot k).record = some c) : Rack.Moves U r (r.reworkCase st k c t) := by
  unfold Rack.reworkCase
  split
  · extract_lets reworked
    have first : Rack.Moves U r reworked := .trans (Rack.items_reworkList _ t hc).moves
      (Rack.moves_modCase u (fun _ => rfl) fun _ => rfl)
    refine first.trans ?_
    split
    · next e v hs =>
      refine .trans (Rack.moves_beginStay st u) (Rack.moves_enter (x := .done e (verdictOf (reworkList (caseModel st c) t c.suspects)))
        u ?_ (fun _ h => by simp [CaseState.powers] at h) (fun h => by simp [CaseState.inRun] at h)
        (fun _ h => by simp [CaseState.inRun] at h) fun _ h => by simp [CaseState.queues] at h)
      simp [reworked, Slot.caseState, hc, CaseRecord.withList, hs, CaseState.withVerdict]
    all_goals exact Rack.moves_stamp u
  · exact Rack.moves_stamp u

/-! ## The rack requests -/

theorem Rack.moves_beginQuiesce (r : Rack) : Rack.Moves U r r.beginQuiesce := by
  unfold Rack.beginQuiesce
  split
  · exact .trans (.single (.shared .quiescing r.bench r.notices rfl)) (Rack.moves_checkQuiesced _)
  · exact .refl

theorem mem_placeAction {draw : Nat} {a b : WakeAction} {l : List WakeAction} (h : b ∈ placeAction draw a l) :
    b = a ∨ b ∈ l := by
  induction l with
  | nil => exact .inl (by simpa [placeAction] using h)
  | cons x xs ih =>
    unfold placeAction at h
    split at h
    · exact List.mem_cons.mp h
    · rcases List.mem_cons.mp h with rfl | h
      · exact .inr (.head _)
      · exact (ih h).imp_right (.tail _)

theorem mem_orderActions {draw : Nat} {b : WakeAction} {l : List WakeAction} (h : b ∈ orderActions draw l) : b ∈ l := by
  induction l with
  | nil => exact h
  | cons x xs ih =>
    rcases mem_placeAction h with rfl | h
    · exact .head _
    · exact .tail _ (ih h)

/-- A wake takes its actions in the free order, and every sequencer goes on (R116). -/
theorem Rack.acts_wake (st : Store) (draw : Nat) (r : Rack) (live : ∀ k, r.slot k ≠ Slot.reset → U k) :
    Rack.Acts U r (r.wake st draw) := by
  have active : Rack.Moves U r { r with quiesce := .active } := .single (.shared .active r.bench r.notices rfl)
  refine active.acts.trans (Relation.ReflTransGen.trans (acts_foldl _ _ (fun a ha r' => ?_) _)
    (acts_foldl _ _ (fun k _ r' => (Rack.moves_issue st r' k).acts) _))
  rcases List.mem_cons.mp (mem_orderActions ha) with rfl | ha
  · exact (Rack.moves_grantPass st r').acts
  · obtain ⟨k, hk, rfl⟩ := List.mem_map.mp ha
    refine Rack.acts_takeOrHoldAdvance st (live k fun fresh => ?_)
    have held := (List.mem_filter.mp hk).2
    simp [Rack.wakeAdvance, fresh, Slot.reset, Slot.stay, Stay.idle] at held

/-- The bench port drops its grant or its pending HOLD (R214). -/
theorem Rack.moves_dropBench (r : Rack) : Rack.Moves U r r.dropBench := by
  have drop : (∀ k, r.bench.state ≠ .granted k) → Rack.Moves U r { r with bench := { r.bench with state := .idle } } :=
    fun free => .single (.hold .idle free (by simp) (by simp))
  unfold Rack.dropBench
  cases hb : r.bench.state with
  | idle => exact drop (by simp [hb])
  | pending k => exact drop (by simp [hb])
  | granted k => exact .trans (.single (.benchEnd k hb)) (Rack.moves_noticeSlot _ k)

/-- A case in a run is FAULTED by the restart; its entry went with the queue (R26). -/
theorem Rack.moves_restartSlot_run {r : Rack} {k : SlotIx} (run : (r.slot k).inRun = true) (queue : r.queue = []) :
    Rack.Moves U r ((r.dropRun k).enter k (.faulted .restart) |>.setUnits k 0) := by
  obtain ⟨c, hc⟩ : ∃ c, (r.slot k).record = some c := by
    cases hc : (r.slot k).record with
    | none => simp [Slot.inRun, hc] at run
    | some c => exact ⟨c, rfl⟩
  have live : (r.dropRun k).slot k ≠ Slot.reset := Slot.ne_reset_of_record (c := c) (by simpa using hc)
  have old : ((r.dropRun k).slot k).caseState = some c.state := by simp [Slot.caseState, hc]
  refine .trans (Rack.moves_dropRun (.inr (Slot.ne_reset_of_record hc))) (.single (.slot k _
    ⟨rfl, rfl, rfl, fun _ h => by simp [h]⟩ rfl ?_ ?_ ?_ (.inr (.inl live))))
  · refine ⟨Slot.railSafe_entered (cs := .faulted .restart) old (by simp [Slot.caseState, hc]) (by simp) (fun on => ?_)
      (fun h => by simp [CaseState.inRun] at h), .inr (by simp), .inl (by simp [Slot.suspects, hc]), ?_⟩
    · rw [Rack.slot_setUnits_same, Rack.slot_enter_same] at on
      exact absurd on (by rw [r.off_dropRun k]; simp)
    · simpa using Line.follows_refl _
  · exact fun units => by simp at units
  · exact fun queued => by simp [Rack.queued, queue] at queued

/-- What the restart leaves of a slot that is in no run: no units, an unsure pointer (R130, R173). -/
theorem Rack.moves_restartSlot_idle (r : Rack) (k : SlotIx) :
    Rack.Moves U r ((r.setUnits k 0).modLine k fun l => { l with sure := false }) := by
  have out : ((r.setUnits k 0).modLine k fun l => { l with sure := false }).slot k =
      { r.slot k with units := 0, line := { (r.slot k).line with sure := false } } := by simp
  refine .single (.slot k _ ⟨rfl, rfl, rfl, fun _ h => by simp [h]⟩ rfl ?_ ?_ ?_ (.inr ?_)) <;> rw [out]
  · exact ⟨id, .inr rfl, .inl rfl, Line.follows_same rfl Iff.rfl⟩
  · exact fun units => absurd rfl units
  · exact fun _ may => may
  · by_cases fresh : r.slot k = Slot.reset
    · exact .inr (by rw [fresh]; rfl)
    · exact .inl fresh

theorem Rack.moves_restartSlot {r : Rack} {k : SlotIx} (queue : r.queue = []) : Rack.Moves U r (r.restartSlot k) := by
  unfold Rack.restartSlot
  extract_lets ended
  by_cases run : (r.slot k).inRun = true
  · have h : ended = (r.dropRun k).enter k (.faulted .restart) := if_pos run
    rw [h]
    refine .trans (Rack.moves_restartSlot_run run queue) ?_
    have idle := Rack.moves_restartSlot_idle (U := U) (((r.dropRun k).enter k (.faulted .restart)).setUnits k 0) k
    have twice : ∀ x : Rack, (x.setUnits k 0).setUnits k 0 = x.setUnits k 0 := fun x => by
      simp [Rack.setUnits, Rack.modSlot, Rack.setSlot, Rack.slot]
    rwa [twice] at idle
  · have h : ended = r := if_neg run
    rw [h]
    exact Rack.moves_restartSlot_idle r k

theorem Rack.queue_restartSlot (r : Rack) (k : SlotIx) : (r.restartSlot k).queue = r.queue := by
  unfold Rack.restartSlot
  split <;> simp

/-- The rack's side of RACK RESTART (R230). -/
theorem Rack.moves_restart (r : Rack) : Rack.Moves U r r.restart := by
  have cleared : Rack.Moves U r { r with queue := [], quiesce := .active } :=
    .trans (Rack.moves_dropEntries (List.nil_sublist _)) (.single (.shared .active r.bench r.notices rfl))
  have queue : (Rack.dropBench { r with queue := [], quiesce := .active }).queue = [] := by
    unfold Rack.dropBench
    cases r.bench.state <;> rfl
  have slots : ∀ (l : List SlotIx) (r' : Rack), r'.queue = [] → Rack.Moves U r' (l.foldl Rack.restartSlot r') := by
    intro l
    induction l with
    | nil => exact fun _ _ => .refl
    | cons k l ih => exact fun r' h => (Rack.moves_restartSlot h).trans (ih _ (by rw [Rack.queue_restartSlot, h]))
  exact .trans cleared (.trans (Rack.moves_dropBench _) (.trans (slots allSlots _ queue) (Rack.moves_noticeFlag _ _)))

/-! ## The bench port (R203 to R211) -/

theorem Rack.moves_takeHold {r : Rack} {k : SlotIx} (u : U k) (idle : r.bench.state = .idle) :
    Rack.Moves U r (r.takeHold k) := by
  unfold Rack.takeHold
  split
  · next boundary =>
    exact .single (.benchGrant k (by simp [idle]) (Slot.exchange_of_boundary boundary) (.inl u))
  · exact .single (.hold _ (by simp [idle]) (by simp) fun j hj => by cases hj; exact u)

theorem Slot.exchange_seizeAbort (a : Slot) : a.seizeAbort.line.exchange = none := by
  unfold Slot.seizeAbort
  split
  · exact Line.exchange_abort _
  · next h => simpa using h

theorem Slot.tame_seizeAbort (a : Slot) : Slot.Tame a a.seizeAbort := by
  unfold Slot.seizeAbort
  split
  · exact ⟨rfl, rfl, rfl, rfl, id, Line.follows_abort _⟩
  · exact ⟨rfl, rfl, rfl, rfl, id, Line.follows_refl _⟩

/-- A SEIZE is taken (R208). -/
theorem Rack.acts_takeSeize (st : Store) {r : Rack} {k : SlotIx} (u : U k) (free : ∀ j, r.bench.state ≠ .granted j) :
    Rack.Acts U r (r.takeSeize st k) :=
  (Rack.Moves.acts (.trans (Rack.moves_modSlot u (Slot.tame_seizeAbort _)) (.single (.benchGrant k free
    (by rw [Rack.slot_modSlot_same]; exact Slot.exchange_seizeAbort _) (.inl u))))).trans (Rack.acts_proceed st u)

theorem Rack.acts_withdrawHold (st : Store) {r : Rack} {k : SlotIx} (u : U k) (free : ∀ j, r.bench.state ≠ .granted j) :
    Rack.Acts U r (r.withdrawHold st k) := by
  have idle : Rack.Moves U r r.benchIdle := .single (.hold .idle free (by simp) (by simp))
  exact idle.acts.trans (Rack.acts_proceed st u)

theorem Rack.acts_releaseBench (st : Store) {r : Rack} {k : SlotIx} (u : U k) (granted : r.bench.state = .granted k) :
    Rack.Acts U r (r.releaseBench st k) :=
  (Rack.Moves.acts (.trans (.single (.benchEnd k granted)) (Rack.moves_noticeSlot _ k))).trans (Rack.acts_proceed st u)

theorem Rack.acts_benchRequest (st : Store) {r : Rack} {k : SlotIx} (live : r.inUse k = true → U k)
    (idle : r.bench.state = .idle) : Rack.Acts U r (r.benchRequest st k) := by
  unfold Rack.benchRequest
  split
  · next use =>
    split
    · exact Rack.acts_takeSeize st (live use) (by simp [idle])
    · split
      · exact (Rack.moves_takeHold (live use) idle).acts
      · exact .refl
  · exact .refl

/-- A millisecond sample of the bench lines (R203). -/
theorem Rack.acts_benchSample (st : Store) {r : Rack} {k : SlotIx} (hold seize : Bool)
    (live : ∀ j, r.reachable j → U j) : Rack.Acts U r (r.benchSample st k hold seize) := by
  unfold Rack.benchSample
  extract_lets rises sampled
  have state : sampled.bench.state = r.bench.state := rfl
  have first : Rack.Moves U r sampled := .single (.shared r.quiesce _ r.notices rfl)
  refine first.acts.trans ?_
  split
  · next idle => exact Rack.acts_benchRequest st (fun use => live k (.inl use)) idle
  · next j pending =>
    have u : U j := live j (.inr (.inr (.inl (Rack.isPending_iff.mpr (state ▸ pending)))))
    split
    · split
      · next seized =>
        have same : j = k := by simp only [Bool.and_eq_true, beq_iff_eq] at seized; exact seized.2
        exact Rack.acts_takeSeize st (same ▸ u) (by simp [pending])
      · exact .refl
    · exact Rack.acts_withdrawHold st u (by simp [pending])
  · next j granted =>
    have u : U j := live j (.inr (.inr (.inr (Rack.isGranted_iff.mpr (state ▸ granted)))))
    split
    · exact .refl
    · exact Rack.acts_releaseBench st u granted

/-! ## The inputs of a slot (R24, R25, R135, R194) -/

theorem Rack.acts_scan (st : Store) {r : Rack} {k : SlotIx} (n : Nat) (oc : Bool) (u : U k) :
    Rack.Acts U r (r.scan st k n oc) := by
  unfold Rack.scan
  extract_lets l level
  split
  · exact .refl
  · exact .refl
  · next rising =>
    split
    · exact Rack.acts_trip st .trip u
    · split
      · exact Rack.acts_railGood st u (by change l.state.isOn = true; rw [rising]; rfl)
      · exact .refl
  · next good =>
    split
    · exact Rack.acts_trip st .trip u
    · split
      · exact (Rack.moves_railSag st u (by change l.state.isOn = true; rw [good]; rfl)).acts
      · exact .refl
  · next sag =>
    split
    · exact Rack.acts_trip st .trip u
    · split
      · exact Rack.acts_railGood st u (by change l.state.isOn = true; rw [sag]; rfl)
      · split
        · exact Rack.acts_trip st .trip u
        · exact .refl

theorem Rack.moves_onInput {r : Rack} {k : SlotIx} {event : Rack → Rack} (live : r.inUse k = true → U k)
    (h : U k → Rack.Acts U r (event r)) : Rack.Acts U r (r.onInput k event) := by
  unfold Rack.onInput
  split
  · next use => exact h (live use)
  · exact .refl

/-- The latch of a case in a run opens; it changes together with the state, as no run stands under an OPEN latch (R24). -/
theorem Rack.moves_pull (st : Store) {r r₁ : Rack} {k : SlotIx} (u : U k) (near : Rack.Near k r r₁)
    (queue : r₁.queue = r.queue) (opened : r₁.slot k = { r.slot k with latchClosed := false })
    (run : (r.slot k).inRun = true) : Rack.Moves U r (r₁.endRun st k .pulled) := by
  obtain ⟨c, hc⟩ : ∃ c, (r.slot k).record = some c := by
    cases hc : (r.slot k).record with
    | none => simp [Slot.inRun, hc] at run
    | some c => exact ⟨c, rfl⟩
  have hc₁ : (r₁.slot k).record = some c := by rw [opened]; exact hc
  have stamp₁ : (r₁.slot k).stamp = (r.slot k).stamp := by rw [opened]
  have line₁ : (r₁.slot k).line = (r.slot k).line := by rw [opened]
  have out : (((r₁.dropRun k).giveBack k).enter k .pulled).slot k = { (r₁.dropRun k).slot k with
      record := some { c with state := .pulled }, stamp := (r.slot k).stamp + 1, units := 0 } := by
    simp [hc₁, stamp₁]
  have line : ((r₁.dropRun k).slot k).line = ((r.dropRun k).slot k).line := by
    simp [Rack.dropRun, Rack.abortOff, Rack.railOff, line₁]
  have near' : Rack.Near k ((r.dropRun k).giveBack k) (((r₁.dropRun k).giveBack k).enter k .pulled) :=
    ⟨by simpa using near.wide, by simpa using near.budget, by simpa using near.bench, fun j h => by simp [h, near.slot j h]⟩
  have before : Rack.Moves U r ((r.dropRun k).giveBack k) := (Rack.moves_dropRun (.inl u)).trans (Rack.moves_giveBack u)
  refine .trans (.tail before (.slot k _ near' ?_ ?_ ?_ ?_ (.inl u))) (Rack.moves_grantPass st _)
  · simp [queue]
  · rw [out]
    refine ⟨fun _ => ⟨fun on => ?_, fun run => by simp [Slot.inRun, CaseState.inRun] at run⟩, .inr rfl, .inl ?_, ?_⟩
    · exact absurd on (by rw [r₁.off_dropRun k]; simp)
    · simp [Slot.suspects, hc]
    · rw [line, Rack.slot_giveBack_same]; exact Line.follows_refl _
  · rw [out]; exact fun units => absurd rfl units
  · exact fun queued => by simp [Rack.queued_giveBack] at queued

/-- A latch opens: a pull of a case in a run (R24). -/
theorem Rack.acts_openLatch (st : Store) {r : Rack} {k : SlotIx} (u : U k) : Rack.Acts U r (r.openLatch st k) := by
  unfold Rack.openLatch
  extract_lets opened
  have own : opened.slot k = { r.slot k with latchClosed := false } := by simp [opened]
  have near : Rack.Near k r opened := ⟨rfl, rfl, rfl, fun _ h => by simp [opened, h]⟩
  have same : (opened.slot k).inRun = (r.slot k).inRun := by rw [own]; rfl
  split
  · next run => exact (Rack.moves_pull st u near rfl own (same ▸ run)).acts.trans (Rack.acts_proceed st u)
  · next idle =>
    refine .single (.move _ (.slot k _ near rfl ?_ ?_ ?_ (.inl u))) <;> rw [own]
    · refine ⟨fun safe => ⟨fun on => ?_, fun run => absurd run (same ▸ idle)⟩, .inl rfl, .inl rfl, Line.follows_refl _⟩
      exact absurd (Slot.inRun_of_takesTrip (safe.1 on).1) (same ▸ idle)
    · exact fun _ run => run
    · exact fun _ may => may

/-- A latch closes: a seat of a PULLED case (R25). -/
theorem Rack.acts_closeLatch (st : Store) {r : Rack} {k : SlotIx} (u : U k) : Rack.Acts U r (r.closeLatch st k) := by
  unfold Rack.closeLatch
  extract_lets closed
  have first : Rack.Moves U r closed := by
    refine .trans (.single (.slot k _ (Rack.near_modSlot ..) rfl ?_ ?_ ?_ (.inl u))) (Rack.moves_noticeSlot _ k)
    all_goals rw [Rack.slot_modSlot_same]
    · exact ⟨fun safe => ⟨fun on => ⟨(safe.1 on).1, rfl⟩, fun _ => rfl⟩, .inl rfl, .inl rfl, Line.follows_refl _⟩
    · exact fun _ run => run
    · exact fun _ may => may
  refine first.acts.trans (Rack.Moves.acts ?_)
  split
  · next pulled =>
    refine .trans (Rack.moves_beginStay st u) (Rack.moves_enter (x := .pulled) u ?_ (fun _ h => by simp [CaseState.powers] at h)
      (fun h => by simp [CaseState.inRun] at h) (fun _ h => by simp [CaseState.inRun] at h)
      fun _ h => by simp [CaseState.queues] at h)
    obtain ⟨c, hc, hs⟩ := Slot.record_of_caseState pulled
    simp [Slot.caseState, hc, hs]
  · exact .refl

theorem Rack.acts_sampleLatch (st : Store) {r : Rack} {k : SlotIx} (sample : Bool) (u : U k) :
    Rack.Acts U r (r.sampleLatch st k sample) := by
  unfold Rack.sampleLatch
  extract_lets before
  generalize debounce Config.latchSamples before (r.slot k).latchCount sample = d
  obtain ⟨after, count⟩ := d
  have counted : Rack.Moves U r (r.modSlot k fun sl => { sl with latchCount := count }) :=
    Rack.moves_modSlot u ⟨rfl, rfl, rfl, rfl, id, Line.follows_refl _⟩
  refine counted.acts.trans ?_
  dsimp only
  split
  · exact .refl
  · split
    · exact Rack.acts_closeLatch st u
    · exact Rack.acts_openLatch st u

/-! ## The sense line (R155 to R167) -/

theorem Rack.acts_onChar {r : Rack} {looks : List Bool} {event : LineChar → Rack} (h : ∀ x, Rack.Acts U r (event x)) :
    Rack.Acts U r (r.onChar looks event) := by
  unfold Rack.onChar
  split
  · exact .refl
  · exact h _

/-- An event of an exchange in flight reaches a slot that is not as after reset. -/
theorem Rack.acts_inLine {r : Rack} {k : SlotIx} {state : LineState} {event : Exchange → Rack}
    (live : r.slot k ≠ Slot.reset → U k)
    (h : ∀ x, U k → (r.slot k).line.state = state → (r.slot k).line.exchange = some x → Rack.Acts U r (event x)) :
    Rack.Acts U r (r.inLine k state event) := by
  unfold Rack.inLine
  split
  · next hs =>
    split
    · exact .refl
    · next x hx => exact h x (live fun fresh => by simp [fresh, Slot.reset, Line.reset] at hx) hs hx
  · exact .refl

/-- An exchange in flight goes on on its line. -/
theorem Line.follows_flight {l l' : Line} {x : Exchange} (flight : l.exchange = some x) (x' : l'.exchange ≠ none)
    (state : l'.state ≠ .idle ∧ l'.state ≠ .passed) : l.follows l' :=
  Line.follows_of (.inl (by simp [flight])) (.inl ⟨x', state⟩)

theorem Line.follows_setExchange {l : Line} {x : Exchange} (y : Exchange) (flight : l.exchange = some x) :
    l.follows (l.setExchange y) := Line.follows_same rfl (by simp [Line.setExchange, flight])

theorem Rack.acts_spacingEnd {r : Rack} {k : SlotIx} (live : r.slot k ≠ Slot.reset → U k) :
    Rack.Acts U r (r.spacingEnd k) := by
  unfold Rack.spacingEnd
  extract_lets passed
  have own : passed.slot k = { r.slot k with line := { (r.slot k).line with
      lastEnd := if (r.slot k).line.lastEnd = .within then .passed else (r.slot k).line.lastEnd } } := by simp [passed]
  have first : Rack.Moves U r passed := by
    refine Rack.moves_of_tame (Rack.near_modSlot ..) rfl ?_ (own ▸ ⟨rfl, rfl, rfl, rfl, id, Line.follows_same rfl Iff.rfl⟩)
    by_cases fresh : r.slot k = Slot.reset
    · exact .inr (.inr (by rw [own, fresh]; rfl))
    · exact .inr (.inl fresh)
  refine first.acts.trans (Rack.acts_inLine (fun there => live fun fresh => there (by rw [own, fresh]; rfl))
    fun x u _ flight => ?_)
  split
  · exact (Rack.moves_modLine u (Line.follows_setExchange _ flight)).acts
  · exact .refl

theorem Rack.acts_echo (st : Store) {r : Rack} {k : SlotIx} (char : LineChar) (live : r.slot k ≠ Slot.reset → U k) :
    Rack.Acts U r (r.echo st k char) := by
  refine Rack.acts_inLine live fun x u _ flight => ?_
  split
  · exact .refl
  · split
    · unfold Rack.goodEcho
      split
      · exact (Rack.moves_modLine u (Line.follows_setExchange _ flight)).acts
      · split
        · exact Rack.acts_exchangeOk st u flight
        · exact (Rack.moves_modLine u (Line.follows_flight flight (by simp [flight]) (by simp))).acts
    · exact (Rack.moves_failAttempt st .noecho u flight).acts

theorem Rack.acts_echoTimeout (st : Store) {r : Rack} {k : SlotIx} (live : r.slot k ≠ Slot.reset → U k) :
    Rack.Acts U r (r.echoTimeout st k) := by
  refine Rack.acts_inLine live fun x u _ flight => ?_
  split
  · exact .refl
  · exact (Rack.moves_failAttempt st .noecho u flight).acts

theorem Rack.acts_reply (st : Store) {r : Rack} {k : SlotIx} (char : LineChar) (live : r.slot k ≠ Slot.reset → U k) :
    Rack.Acts U r (r.reply st k char) := by
  refine Rack.acts_inLine live fun x u _ flight => ?_
  split
  · unfold Rack.takeReply
    dsimp only
    split
    · exact (Rack.moves_modLine u (Line.follows_setExchange _ flight)).acts
    · exact Rack.acts_exchangeOk st u flight
  · exact (Rack.moves_failAttempt st .parity u flight).acts

theorem Rack.acts_replyTimeout (st : Store) {r : Rack} {k : SlotIx} (live : r.slot k ≠ Slot.reset → U k) :
    Rack.Acts U r (r.replyTimeout st k) :=
  Rack.acts_inLine live fun _ u _ flight => (Rack.moves_failAttempt st .silent u flight).acts

theorem Rack.acts_breakEnd {r : Rack} {k : SlotIx} (live : r.slot k ≠ Slot.reset → U k) :
    Rack.Acts U r (r.breakEnd k) :=
  Rack.acts_inLine live fun _ u _ flight =>
    (Rack.moves_modLine u (Line.follows_flight flight (by simp [flight]) (by simp))).acts

theorem Rack.acts_settleEnd (st : Store) {r : Rack} {k : SlotIx} (live : r.slot k ≠ Slot.reset → U k) :
    Rack.Acts U r (r.settleEnd st k) := by
  refine Rack.acts_inLine live fun x u _ flight => ?_
  split
  · exact (Rack.moves_modLine u (Line.follows_flight flight (by simp [Line.setExchange])
      (by simp [Line.setExchange]))).acts
  · exact Rack.acts_exchangeFailed st u flight

/-! ## The rack tick (R95) -/

theorem CaseRecord.tick_keeps (n : Nat) (c : CaseRecord) :
    (c.tick n).state = c.state ∧ (c.tick n).suspects = c.suspects := by
  unfold CaseRecord.tick
  split <;> exact ⟨rfl, rfl⟩

theorem Rack.record_tickSlot (st : Store) (r : Rack) (k : SlotIx) : ∃ f : CaseRecord → CaseRecord,
    (∀ c, (f c).state = c.state ∧ (f c).suspects = c.suspects) ∧
      (r.tickSlot st k).record = (r.slot k).record.map f := by
  by_cases counts : (r.slot k).caseState = some .running ∧ r.moving k = true
  · exact ⟨_, CaseRecord.tick_keeps (r.stage st k).halfPeriod, if_pos counts⟩
  · exact ⟨id, fun _ => ⟨rfl, rfl⟩, by rw [Option.map_id]; exact if_neg counts⟩

/-- A tick changes no state, no list, no units and no latch. -/
theorem Rack.tame_tickSlot (st : Store) (r : Rack) (k : SlotIx) : Slot.Tame (r.slot k) (r.tickSlot st k) := by
  obtain ⟨f, keep, record⟩ := r.record_tickSlot st k
  refine ⟨?_, ?_, rfl, rfl, id, Line.follows_refl _⟩
  · rw [Slot.caseState, record, Slot.caseState]
    cases (r.slot k).record <;> simp [keep]
  · rw [Slot.suspects, record, Slot.suspects]
    cases (r.slot k).record <;> simp [keep]

/-- A tick leaves a slot at its values after reset. -/
theorem Rack.tickSlot_reset (st : Store) {r : Rack} {k : SlotIx} (h : r.slot k = Slot.reset) :
    r.tickSlot st k = Slot.reset := by
  simp [Rack.tickSlot, h, Slot.reset, Slot.caseState, Rail.tick, Rail.reset, Sequencer.tick, Sequencer.reset, Watch.tick,
    Watch.reset]

theorem Rack.moves_tick (st : Store) (r : Rack) : Rack.Moves U r (r.tick st) := by
  suffices h : ∀ (l : List SlotIx) (r' : Rack), l.Nodup → (∀ k ∈ l, r'.slot k = r.slot k) →
      Rack.Moves U r' (l.foldl (fun r' k => r'.setSlot k (r.tickSlot st k)) r') from
    h allSlots r nodup_allSlots fun _ _ => rfl
  intro l
  induction l with
  | nil => exact fun _ _ _ => .refl
  | cons k l ih =>
    intro r' nodup same
    obtain ⟨new, nodup⟩ := List.nodup_cons.mp nodup
    refine .trans ?_ (ih (r'.setSlot k (r.tickSlot st k)) nodup fun j hj => ?_)
    · refine Rack.moves_of_tame (k := k) ⟨rfl, rfl, rfl, fun _ h => by simp [h]⟩ rfl (.inr ?_) ?_
      · by_cases fresh : r'.slot k = Slot.reset
        · exact .inr (by rw [Rack.slot_setSlot_same, fresh, Rack.tickSlot_reset st (same k (.head _) ▸ fresh)])
        · exact .inl fresh
      · rw [Rack.slot_setSlot_same, same k (.head _)]
        exact r.tame_tickSlot st k
    · rw [Rack.slot_setSlot_ne _ _ (by rintro rfl; exact new hj), same j (.tail _ hj)]

end Sys2Proof.Machine
end

section
/-! What a command keeps: of the rack, the changes it is made of; of the port and of the store, their invariants. -/

namespace Sys2Proof.Machine

/-! ## What a step keeps -/

/-- What one event does to the rack. -/
def Rack.Event (r r' : Rack) : Prop := Rack.Acts r.reachable r r'

theorem Rack.Event.refl (r : Rack) : Rack.Event r r := Relation.ReflTransGen.refl

/-- What a command that is no hard reset does: events of the rack; the port and the store stay safe. -/
structure State.Keeps (s t : State) : Prop where
  rack : Relation.ReflTransGen Rack.Event s.rack t.rack
  port : s.port.safe → t.port.safe
  store : s.storeSafe → t.storeSafe

theorem State.Keeps.refl (s : State) : State.Keeps s s := ⟨.refl, id, id⟩

theorem State.Keeps.trans {s t u : State} (h : State.Keeps s t) (g : State.Keeps t u) : State.Keeps s u :=
  ⟨h.rack.trans g.rack, g.port ∘ h.port, g.store ∘ h.store⟩

/-- The store is safe whatever the rest of the state. -/
theorem State.storeSafe_of_same {s t : State} (port : t.port.rackState = s.port.rackState) (store : t.store = s.store)
    (h : s.storeSafe) : t.storeSafe := by
  rw [State.storeSafe, port, store]
  exact h

theorem State.keeps_withRack {s : State} {r : Rack} (h : Rack.Event s.rack r) : State.Keeps s (s.withRack r) :=
  ⟨.single h, id, id⟩

theorem State.keeps_settled (s : State) : State.Keeps s s.settled :=
  State.keeps_withRack (Rack.acts_settle s.store s.rack)

/-! ## The frame of a request (R217 to R222) -/

/-- What an owner leaves, given the state in which the port lets its request through: events of the rack, the SEL period and
the pending answer, a safe store. -/
structure State.Fits (s : State) (p : Reply) : Prop where
  rack : Rack.Event s.rack p.1.rack
  period : p.1.port.period = s.port.period
  collided : p.1.port.collided = s.port.collided
  store : s.storeSafe → p.1.storeSafe

/-- An owner that leaves the port and the store as they are. -/
theorem State.Fits.of_rack {s : State} {p : Reply} (rack : Rack.Event s.rack p.1.rack) (port : p.1.port = s.port)
    (store : p.1.store = s.store) : State.Fits s p :=
  ⟨rack, by rw [port], by rw [port], State.storeSafe_of_same (by rw [port]) store⟩

theorem State.fits_same (s : State) (a : Answer) : State.Fits s (s, a) := .of_rack (.refl _) rfl rfl

theorem Port.safe_complete {p : Port} (h : p.safe) : p.complete.safe := by
  obtain ⟨collided, period⟩ := h
  refine ⟨collided, fun d hd => ?_⟩
  obtain ⟨d₀, h₀, rfl⟩ := Option.map_eq_some_iff.mp hd
  obtain ⟨shows, position, bits, bit, -⟩ := period d₀ h₀
  exact ⟨shows, position, bits, bit, by simp⟩

/-- A collision with a pending answer (R222). -/
theorem Port.safe_collide {p : Port} (answer : p.answer.isSome = true) (h : p.safe) : p.collide.safe := by
  obtain ⟨-, period⟩ := h
  refine ⟨fun _ => answer, fun d hd => ?_⟩
  obtain ⟨d₀, h₀, rfl⟩ := Option.map_eq_some_iff.mp hd
  obtain ⟨-, position, bits, bit, frame⟩ := period d₀ h₀
  exact ⟨fun _ => rfl, position, bits, bit, frame⟩

/-- An answer becomes pending while the rest of the port but its settings is kept. -/
theorem Port.safe_answer {p p' : Port} {a : Answer} (period : p'.period = p.period) (collided : p'.collided = p.collided)
    (answer : p'.answer = some a) (h : p.safe) : p'.safe := by
  rw [Port.safe, period, collided, answer]
  exact ⟨fun _ => rfl, h.2⟩

/-- A frame completes (R217, R219, R222). -/
theorem State.keeps_onFrame {s : State} {act : State → Reply}
    (h : ∀ t : State, t.port.rackState = s.port.rackState → State.Fits t (act t)) : State.Keeps s (s.onFrame act) := by
  unfold State.onFrame
  split
  · extract_lets t
    split
    · next pending =>
      exact ⟨.refl, fun safe => Port.safe_collide pending (Port.safe_complete safe), id⟩
    · obtain ⟨rack, period, collided, store⟩ := h t rfl
      exact ⟨.single rack, fun safe => Port.safe_answer period collided rfl (Port.safe_complete safe),
        fun safe => State.storeSafe_of_same rfl rfl (store safe)⟩
  · exact .refl s

/-- A request, whose owner sees only rack states that its gate lets through (R223). -/
theorem State.keeps_request {α : Type} (s : State) (g : Gate) (args : Body α) (owner : α → State → Reply)
    (h : ∀ a t, g.refusal t.port.rackState = none → State.Fits t (owner a t)) : State.Keeps s (s.request g args owner) := by
  refine (State.keeps_settled s).trans (State.keeps_onFrame fun t _ => ?_)
  split
  · exact State.fits_same t _
  · next through =>
    split
    · exact State.fits_same t _
    · next a => exact h a t through

/-! ## The owners -/

theorem Rack.reachable_of_inUse {r : Rack} {k : SlotIx} (h : r.inUse k = true) : r.reachable k := .inl h

theorem Rack.inUse_of_slotArg {r : Rack} {b : Byte} {k : SlotIx} (h : r.slotArg b = some k) : r.inUse k = true := by
  unfold Rack.slotArg at h
  split at h
  · dsimp only at h
    split at h
    · next use => exact Option.some.inj h ▸ use
    · simp at h
  · simp at h

theorem Rack.reachable_of_slotArg {r : Rack} {b : Byte} {k : SlotIx} (h : r.slotArg b = some k) : r.reachable k :=
  .inl (Rack.inUse_of_slotArg h)

theorem Rack.reachable_of_record {r : Rack} {k : SlotIx} {c : CaseRecord} (h : (r.slot k).record = some c) :
    r.reachable k := .inr (.inl (Slot.ne_reset_of_record h))

/-- What every request on one slot begins with. -/
theorem State.onCase_cases {s : State} {b : Byte} {act : SlotIx → CaseRecord → Reply} {P : Reply → Prop}
    (bad : P (badArg s)) (noCase : P (refuse s .noCase))
    (taken : ∀ k c, s.rack.slotArg b = some k → (s.rack.slot k).record = some c → P (act k c)) : P (s.onCase b act) := by
  unfold State.onCase
  split
  · exact bad
  · next k hk =>
    split
    · exact noCase
    · next c hc => exact taken k c hk hc

/-- A check that refuses, before what is checked next. -/
theorem State.fits_check {s : State} {p : Prop} [Decidable p] {a b : Reply} (refused : p → State.Fits s a)
    (rest : ¬ p → State.Fits s b) : State.Fits s (if p then a else b) := by
  split
  · next h => exact refused h
  · next h => exact rest h

/-- A taken request on a case. -/
theorem State.fits_doneCase {s : State} {r : Rack} (k : SlotIx) (h : Rack.Event s.rack r) :
    State.Fits s (doneCase (s.withRack r) k) := .of_rack h rfl rfl

theorem State.fits_done {s : State} {r : Rack} (body : List Byte) (h : Rack.Event s.rack r) :
    State.Fits s (done (s.withRack r) body) := .of_rack h rfl rfl

theorem fits_caseOpen (a : CaseOpenArgs) (s : State) : State.Fits s (caseOpen a s) := by
  unfold caseOpen
  split
  · next k m p hk _ _ =>
    refine State.fits_check (fun _ => .of_rack (.refl _) rfl rfl) fun _ =>
      State.fits_check (fun _ => .of_rack (.refl _) rfl rfl) fun _ =>
      State.fits_check (fun _ => .of_rack (.refl _) rfl rfl) fun empty =>
      State.fits_check (fun _ => .of_rack (.refl _) rfl rfl) fun _ =>
      State.fits_check (fun _ => .of_rack (.refl _) rfl rfl) fun _ =>
      State.fits_check (fun _ => .of_rack (.refl _) rfl rfl) fun _ => .of_rack ?_ rfl rfl
    exact (Rack.moves_openCase (Rack.reachable_of_slotArg hk) (by simpa using empty) rfl).acts
  · exact State.fits_same s _

theorem fits_caseStart (a : SlotArgs) (s : State) : State.Fits s (caseStart a s) := by
  refine State.onCase_cases (State.fits_same s _) (State.fits_same s _) fun k c _ hc => ?_
  refine State.fits_check (fun _ => State.fits_same s _) fun _ => State.fits_check (fun _ => State.fits_same s _) fun ready =>
    State.fits_check (fun _ => State.fits_same s _) fun closed => State.fits_check (fun _ => State.fits_same s _) fun _ => ?_
  exact State.fits_doneCase k (Rack.acts_beginRun s.store (x := .ready) (Rack.reachable_of_record hc)
    (by simpa [Slot.caseState, hc] using ready) rfl (by simpa using closed))

theorem fits_casePause (a : SlotArgs) (s : State) : State.Fits s (casePause a s) := by
  refine State.onCase_cases (State.fits_same s _) (State.fits_same s _) fun k c _ hc => ?_
  refine State.fits_check (fun _ => State.fits_same s _) fun running => State.fits_doneCase k (Rack.Moves.acts ?_)
  exact Rack.moves_enter (x := .running) (Rack.reachable_of_record hc) (by simpa [Slot.caseState, hc] using running)
    (fun _ _ => rfl) (fun _ => .inl rfl) (fun _ _ => rfl) fun _ h => by simp [CaseState.queues] at h

theorem fits_caseResume (a : SlotArgs) (s : State) : State.Fits s (caseResume a s) := by
  refine State.onCase_cases (State.fits_same s _) (State.fits_same s _) fun k c _ hc => ?_
  refine State.fits_check (fun _ => State.fits_same s _) fun _ => ?_
  have u := Rack.reachable_of_record hc
  split
  · next paused =>
    refine State.fits_check (fun _ => State.fits_same s _) fun _ => State.fits_check (fun _ => State.fits_same s _) fun _ => ?_
    exact State.fits_doneCase k (Rack.acts_resumePaused s.store u (by simp [Slot.caseState, hc, paused]))
  · next faulted =>
    refine State.fits_check (fun _ => State.fits_same s _) fun closed =>
      State.fits_check (fun _ => State.fits_same s _) fun _ => ?_
    exact State.fits_doneCase k (Rack.acts_resumeFaulted s.store u hc faulted (by simpa using closed))
  all_goals exact State.fits_same s _

theorem fits_caseStop (a : SlotArgs) (s : State) : State.Fits s (caseStop a s) := by
  refine State.onCase_cases (State.fits_same s _) (State.fits_same s _) fun k c _ hc => ?_
  refine State.fits_check (fun _ => ?_) fun _ => State.fits_same s _
  exact State.fits_doneCase k (Rack.acts_stopCase s.store (Rack.reachable_of_record hc) hc)

theorem fits_caseClose (a : SlotArgs) (s : State) : State.Fits s (caseClose a s) := by
  refine State.onCase_cases (State.fits_same s _) (State.fits_same s _) fun k c _ hc => ?_
  refine State.fits_check (fun _ => State.fits_same s _) fun out => ?_
  exact State.fits_doneCase k (Rack.moves_closeCase (Rack.reachable_of_record hc) hc (by simpa using out)).acts

theorem fits_caseLook (a : CaseName) (s : State) : State.Fits s (caseLook a s) := by
  unfold caseLook
  split
  · split <;> exact State.fits_same s _
  · refine State.fits_check (fun _ => State.fits_same s _) fun _ => ?_
    split <;> exact State.fits_same s _

theorem fits_caseFind (a : CaseFindArgs) (s : State) : State.Fits s (caseFind a s) := by
  refine State.fits_check (fun _ => State.fits_same s _) fun _ => ?_
  split <;> exact State.fits_same s _

theorem fits_caseAmend (a : CaseAmendArgs) (s : State) : State.Fits s (caseAmend a s) := by
  refine State.fits_check (fun _ => State.fits_same s _) fun _ =>
    State.onCase_cases (State.fits_same s _) (State.fits_same s _) fun k c _ hc => ?_
  refine State.fits_check (fun _ => State.fits_same s _) fun _ => State.fits_check (fun _ => State.fits_same s _) fun _ => ?_
  exact State.fits_doneCase k (Rack.moves_amendCase s.store (Rack.reachable_of_record hc)).acts

theorem fits_suspectList (a : SuspectListArgs) (s : State) : State.Fits s (suspectList a s) :=
  State.fits_check (fun _ => State.fits_same s _) fun _ =>
    State.onCase_cases (State.fits_same s _) (State.fits_same s _) fun _ _ _ _ => State.fits_same s _

/-- The checks that the three notes share (R59). -/
theorem State.onNote_cases {s : State} {a : NoteArgs} {act : SlotIx → CaseRecord → Reply} {P : Reply → Prop}
    (bad : P (badArg s)) (noCase : P (refuse s .noCase)) (old : ∀ k, P (stale s k))
    (taken : ∀ k c, s.rack.slotArg a.slot = some k → within 1 (s.componentLimit k) a.component.toNat = true →
      (s.rack.slot k).record = some c → a.stamp = (s.rack.slot k).stamp → P (act k c)) : P (s.onNote a act) := by
  unfold State.onNote
  split
  · exact bad
  · next k hk =>
    split
    · exact bad
    · next component =>
      split
      · exact noCase
      · next c hc =>
        split
        · exact old k
        · next stamp => exact taken k c hk (by simpa using component) hc (by simpa using stamp)

/-- A taken note moves the stamp of the case (R59). -/
theorem State.fits_noted {s : State} {k : SlotIx} {c : CaseRecord} {r : Rack} (n : Nat) (hc : (s.rack.slot k).record = some c)
    (h : Rack.Items s.rack r) : State.Fits s (s.noted k n r) :=
  .of_rack (Rack.Moves.acts (h.trans (Rack.items_stamp (h.opened (by simp [hc])))).moves) rfl rfl

theorem fits_suspectNoteFail (a : NoteArgs) (s : State) : State.Fits s (suspectNoteFail a s) := by
  refine State.onNote_cases (State.fits_same s _) (State.fits_same s _) (fun _ => State.fits_same s _)
    fun k c _ _ hc _ => ?_
  split
  · exact State.fits_same s _
  · next r moved taken => exact State.fits_noted _ hc (Rack.items_takeFail s.store taken).1

theorem fits_suspectNoteConfirm (a : NoteArgs) (s : State) : State.Fits s (suspectNoteConfirm a s) := by
  refine State.onNote_cases (State.fits_same s _) (State.fits_same s _) (fun _ => State.fits_same s _)
    fun k c _ _ hc _ => ?_
  split
  · exact State.fits_same s _
  · next x hx =>
    refine State.fits_check (fun _ => State.fits_same s _) fun _ => ?_
    exact State.fits_noted _ hc (Rack.items_judgeSuspect _ hc (suspectFor_some hx).1)

theorem fits_suspectNoteClear (a : NoteArgs) (s : State) : State.Fits s (suspectNoteClear a s) := by
  refine State.onNote_cases (State.fits_same s _) (State.fits_same s _) (fun _ => State.fits_same s _)
    fun k c _ _ hc _ => ?_
  split
  · exact State.fits_same s _
  · next x hx =>
    refine State.fits_check (fun _ => State.fits_same s _) fun _ => ?_
    exact State.fits_noted _ hc (Rack.items_judgeSuspect _ hc (suspectFor_some hx).1)

theorem fits_suspectSweep (a : SweepArgs) (s : State) : State.Fits s (suspectSweep a s) := by
  unfold suspectSweep
  split
  · exact State.fits_same s _
  · exact State.fits_check (fun _ => State.fits_same s _) fun _ => State.fits_check (fun _ => State.fits_same s _) fun _ =>
      State.fits_check (fun _ => State.fits_same s _) fun _ => State.fits_same s _

theorem fits_rework (a : ReworkArgs) (s : State) : State.Fits s (rework a s) := by
  unfold rework
  split
  · next k t _ _ =>
    refine State.fits_check (fun _ => State.fits_same s _) fun _ => ?_
    split
    · exact State.fits_same s _
    · next c hc =>
      refine State.fits_check (fun _ => State.fits_same s _) fun _ => State.fits_check (fun _ => State.fits_same s _) fun _ => ?_
      exact State.fits_doneCase k (Rack.moves_reworkCase s.store (Rack.reachable_of_record hc) hc).acts
  · exact State.fits_same s _

theorem fits_heaterTrim (a : TrimArgs) (s : State) : State.Fits s (heaterTrim a s) := by
  refine State.fits_check (fun _ => State.fits_same s _) fun _ =>
    State.onCase_cases (State.fits_same s _) (State.fits_same s _) fun k c _ hc => ?_
  refine State.fits_check (fun _ => ?_) fun _ => State.fits_same s _
  exact State.fits_done _ (Rack.moves_modStay (Rack.reachable_of_record hc)).acts

theorem fits_rackQuiesce (a : NoArgs) (s : State) : State.Fits s (rackQuiesce a s) :=
  State.fits_done _ (Rack.moves_beginQuiesce s.rack).acts

theorem fits_rackWake (a : NoArgs) (s : State) : State.Fits s (rackWake a s) := by
  have woken : Rack.Event s.rack (s.rack.wake s.store s.freeCount) := Rack.acts_wake s.store s.freeCount s.rack fun _ h => .inr (.inl h)
  unfold rackWake
  refine State.fits_check (fun _ => State.fits_same s _) fun _ => ?_
  generalize s.rack.wake s.store s.freeCount = r at *
  exact .of_rack woken rfl rfl

theorem fits_budgetLook (a : NoArgs) (s : State) : State.Fits s (budgetLook a s) := State.fits_same s _

theorem fits_notices (a : NoArgs) (s : State) : State.Fits s (notices a s) :=
  State.fits_done _ (Rack.Moves.acts (.single (.shared s.rack.quiesce s.rack.bench ⟨0, 0⟩ rfl)))

theorem fits_rackStatus (a : NoArgs) (s : State) : State.Fits s (rackStatus a s) := State.fits_same s _

/-! ## The store (R73, R75, R84) -/

theorem Gate.unsetOrSet_refusal {x : RackState} (h : Gate.refusal .unsetOrSet x = none) : x ≠ .starting := by
  rintro rfl; simp [Gate.refusal] at h

theorem Gate.setOnly_refusal {x : RackState} (h : Gate.refusal .setOnly x = none) : x = .set := by
  cases x <;> simp [Gate.refusal] at h ⊢

/-- The rack becomes SET or UNSET with the store as it was, and nothing staged that does not fit. -/
theorem State.storeSafe_started {s t : State} (started : s.port.rackState ≠ .starting)
    (started' : t.port.rackState ≠ .starting) (slots : t.store.slots = s.store.slots) (write : t.store.write = s.store.write)
    (staging : ∀ m, t.store.staging = some m → s.store.staging = some m ∨ m.fitsStaging) (h : s.storeSafe) :
    t.storeSafe := by
  obtain ⟨-, programming, fits⟩ := h
  refine ⟨fun start => absurd start started', fun _ m => ?_, fun m hm => (staging m hm).elim (fits m) id⟩
  rw [slots, write]
  exact programming started m

theorem fits_rackSetup (a : SetupArgs) (s : State) (h : s.port.rackState ≠ .starting) : State.Fits s (rackSetup a s) := by
  unfold rackSetup
  split
  · next tick attention _ _ =>
    refine State.fits_check (fun _ => State.fits_same s _) fun _ => State.fits_check (fun _ => State.fits_same s _) fun free => ?_
    refine ⟨.single (.budget _ ?_), rfl, rfl,
      State.storeSafe_started h (by simp [done, State.setUp]) rfl rfl fun m hm => .inl hm⟩
    by_cases same : s.rack.budget = some a.budget.toNat
    · exact .inr same
    · refine .inl fun k => ?_
      have idle : s.rack.anyInRun = false := by
        rw [Bool.eq_false_iff]
        exact fun run => free ⟨.inr same, run⟩
      simp only [Rack.anyInRun, List.any_eq_false] at idle
      simpa using idle k (mem_allSlots k)
  · exact State.fits_same s _

theorem fits_rackRestart (a : NoArgs) (s : State) (h : s.port.rackState ≠ .starting) : State.Fits s (rackRestart a s) :=
  ⟨(Rack.moves_restart s.rack).acts, rfl, rfl,
    State.storeSafe_started h (by simp [rackRestart, done]) rfl rfl fun m hm => by simp [rackRestart, done] at hm⟩

/-- A change of the store in a rack that has started. -/
theorem State.fits_store {s : State} {st : Store} {a : Answer} (h : s.storeSafe → (s.withStore st).storeSafe) :
    State.Fits s (s.withStore st, a) := ⟨.refl _, rfl, rfl, h⟩

theorem State.fits_staged {s : State} {m : Option Model} (started : s.port.rackState ≠ .starting)
    (fits : s.storeSafe → ∀ x, m = some x → x.fitsStaging) : State.Fits s (s.staged m) :=
  State.fits_store fun safe => State.storeSafe_started started started rfl rfl (fun x hx => .inr (fits safe x hx)) safe

theorem fits_modelBegin (a : ModelBeginArgs) (s : State) (h : s.port.rackState ≠ .starting) :
    State.Fits s (modelBegin a s) := by
  unfold modelBegin
  split
  · exact State.fits_same s _
  · next hd _ =>
    refine State.fits_check (fun _ => State.fits_same s _) fun _ => State.fits_staged h fun _ x hx => ?_
    obtain rfl := Option.some.inj hx
    exact ⟨by simp, by simp, fun p => by simp⟩

/-- What an ADD request does with a good entry (R77 to R79). -/
theorem State.fits_addToStaging {s : State} {full : Model → Bool} {add : Model → Model}
    (h : s.port.rackState ≠ .starting) (fits : ∀ m, full m = false → m.fitsStaging → (add m).fitsStaging) :
    State.Fits s (s.addToStaging full add) := by
  unfold State.addToStaging
  refine State.fits_check (fun _ => State.fits_same s _) fun _ => ?_
  split
  · exact State.fits_same s _
  · next m hm =>
    refine State.fits_check (fun _ => State.fits_same s _) fun room => State.fits_staged h fun safe x hx => ?_
    obtain rfl := Option.some.inj hx
    exact fits m (by simpa using room) (safe.2.2 m hm)

theorem fits_modelAddComponent (a : AddComponentArgs) (s : State) (h : s.port.rackState ≠ .starting) :
    State.Fits s (modelAddComponent a s) := by
  unfold modelAddComponent
  split
  · exact State.fits_same s _
  · refine State.fits_addToStaging h fun m room ⟨components, stages, programs⟩ => ⟨?_, stages, programs⟩
    simp at room ⊢
    omega

theorem fits_modelAddStage (a : AddStageArgs) (s : State) (h : s.port.rackState ≠ .starting) :
    State.Fits s (modelAddStage a s) := by
  unfold modelAddStage
  split
  · exact State.fits_same s _
  · refine State.fits_addToStaging h fun m room ⟨components, stages, programs⟩ => ⟨components, ?_, programs⟩
    simp at room ⊢
    omega

theorem fits_modelAddStep (a : AddStepArgs) (s : State) (h : s.port.rackState ≠ .starting) :
    State.Fits s (modelAddStep a s) := by
  unfold modelAddStep
  split
  · next p _ =>
    refine State.fits_addToStaging h fun m room ⟨components, stages, programs⟩ => ⟨components, stages, fun q => ?_⟩
    by_cases same : p = q
    · subst same
      simp [Model.addStep] at room ⊢
      omega
    · have : p.val ≠ q.val := fun e => same (Fin.ext e)
      simpa [Model.addStep, this] using programs q
  · exact State.fits_same s _

theorem fits_modelDiscard (a : NoArgs) (s : State) (h : s.port.rackState ≠ .starting) :
    State.Fits s (modelDiscard a s) :=
  State.fits_check (fun _ => State.fits_same s _) fun _ => State.fits_staged h fun _ _ hx => by simp at hx

/-- A store write begins or ends at one slot: the slot is PROGRAMMING exactly when the write programs it, and no other is. -/
theorem State.storeSafe_write {s t : State} {m : ModelIx} {x : ModelSlot} (started : s.port.rackState ≠ .starting)
    (started' : t.port.rackState ≠ .starting) (slots : t.store.slots = s.store.slots.set m x)
    (was : ∀ n, n ≠ m → s.store.write ≠ some (.programming n)) (now : ∀ n, n ≠ m → t.store.write ≠ some (.programming n))
    (own : x.state = .programming ↔ t.store.write = some (.programming m))
    (staging : ∀ y, t.store.staging = some y → s.store.staging = some y) (h : s.storeSafe) : t.storeSafe := by
  obtain ⟨-, programming, fits⟩ := h
  refine ⟨fun start => absurd start started', fun _ n => ?_, fun y hy => fits y (staging y hy)⟩
  rw [slots]
  by_cases same : n = m
  · subst same
    simpa using own
  · have : m.val ≠ n.val := fun e => same (Fin.ext e.symm)
    have other : (s.store.slots.set m x)[n] = s.store.slots[n] := by simp [this]
    rw [other, programming started n]
    exact iff_of_false (was n same) (now n same)

theorem fits_modelCommit (a : ModelSlotArgs) (s : State) (h : s.port.rackState ≠ .starting) :
    State.Fits s (modelCommit a s) := by
  unfold modelCommit
  split
  · exact State.fits_same s _
  · next m _ =>
    split
    · exact State.fits_same s _
    · next record _ =>
      split
      · exact State.fits_same s _
      · refine State.fits_check (fun _ => State.fits_same s _) fun idle => State.fits_check (fun _ => State.fits_same s _) fun _ =>
          State.fits_check (fun _ => State.fits_same s _) fun _ => State.fits_store fun safe => ?_
        have none : s.store.write = none := Store.busy_eq_false.mp (by simpa using idle)
        exact State.storeSafe_write (m := m) (x := ⟨.programming, .begun, false, some record⟩) h h rfl (fun n _ => by simp [none])
          (fun n hn => by simpa [State.withStore, Store.accept] using hn.symm) (by simp [State.withStore, Store.accept])
          (fun y hy => by simp [State.withStore, Store.accept] at hy) safe

theorem fits_modelRead (a : ModelReadArgs) (s : State) : State.Fits s (modelRead a s) := by
  unfold modelRead
  split
  · exact State.fits_same s _
  · exact State.fits_check (fun _ => State.fits_same s _) fun _ => State.fits_check (fun _ => State.fits_same s _) fun _ =>
      State.fits_check (fun _ => State.fits_same s _) fun _ => State.fits_same s _

theorem fits_modelLock (a : ModelSlotArgs) (s : State) (h : s.port.rackState ≠ .starting) :
    State.Fits s (modelLock a s) := by
  unfold modelLock
  split
  · exact State.fits_same s _
  · next m _ =>
    refine State.fits_check (fun _ => State.fits_same s _) fun idle => State.fits_check (fun _ => State.fits_same s _) fun _ =>
      State.fits_store fun safe => ?_
    have none : s.store.write = none := Store.busy_eq_false.mp (by simpa using idle)
    exact State.storeSafe_write (m := m) h h rfl (fun n _ => by simp [none])
      (fun n _ => by simp [State.withStore, Store.lock]) (by simp [State.withStore, Store.lock])
      (fun y hy => by simpa [State.withStore, Store.lock] using hy) safe

theorem fits_storeClear (a : NoArgs) (s : State) (h : s.port.rackState ≠ .starting) : State.Fits s (storeClear a s) := by
  refine State.fits_check (fun _ => State.fits_same s _) fun idle => State.fits_check (fun _ => State.fits_same s _) fun _ =>
    State.fits_store fun safe => ?_
  have none : s.store.write = none := Store.busy_eq_false.mp (by simpa using idle)
  obtain ⟨-, programming, fits⟩ := safe
  refine ⟨fun start => absurd start h, fun _ m => ?_, fits⟩
  have := programming h m
  rw [none] at this
  exact this.trans (by simp [State.withStore])

/-! ## The rows that are frames -/

/-- The row of a frame keeps what a step keeps (R219). -/
theorem State.keeps_frameMeaning (c : Instr) (s : State) : State.Keeps s (nextOr s (frameMeaning c s)) := by
  have unset {x : RackState} (h : Gate.refusal .setOnly x = none) : x ≠ .starting := by
    rw [Gate.setOnly_refusal h]; simp
  cases c with
  | caseOpen args => exact State.keeps_request s _ args _ fun a t _ => fits_caseOpen a t
  | caseStart args => exact State.keeps_request s _ args _ fun a t _ => fits_caseStart a t
  | casePause args => exact State.keeps_request s _ args _ fun a t _ => fits_casePause a t
  | caseResume args => exact State.keeps_request s _ args _ fun a t _ => fits_caseResume a t
  | caseStop args => exact State.keeps_request s _ args _ fun a t _ => fits_caseStop a t
  | caseClose args => exact State.keeps_request s _ args _ fun a t _ => fits_caseClose a t
  | caseLook args => exact State.keeps_request s _ args _ fun a t _ => fits_caseLook a t
  | caseFind args => exact State.keeps_request s _ args _ fun a t _ => fits_caseFind a t
  | caseAmend args => exact State.keeps_request s _ args _ fun a t _ => fits_caseAmend a t
  | suspectList args => exact State.keeps_request s _ args _ fun a t _ => fits_suspectList a t
  | suspectNoteFail args => exact State.keeps_request s _ args _ fun a t _ => fits_suspectNoteFail a t
  | suspectNoteConfirm args => exact State.keeps_request s _ args _ fun a t _ => fits_suspectNoteConfirm a t
  | suspectNoteClear args => exact State.keeps_request s _ args _ fun a t _ => fits_suspectNoteClear a t
  | suspectSweep args => exact State.keeps_request s _ args _ fun a t _ => fits_suspectSweep a t
  | rework args => exact State.keeps_request s _ args _ fun a t _ => fits_rework a t
  | modelBegin args => exact State.keeps_request s _ args _ fun a t h => fits_modelBegin a t (unset h)
  | modelAddComponent args => exact State.keeps_request s _ args _ fun a t h => fits_modelAddComponent a t (unset h)
  | modelAddStage args => exact State.keeps_request s _ args _ fun a t h => fits_modelAddStage a t (unset h)
  | modelAddStep args => exact State.keeps_request s _ args _ fun a t h => fits_modelAddStep a t (unset h)
  | modelCommit args => exact State.keeps_request s _ args _ fun a t h => fits_modelCommit a t (unset h)
  | modelDiscard args => exact State.keeps_request s _ args _ fun a t h => fits_modelDiscard a t (unset h)
  | modelRead args => exact State.keeps_request s _ args _ fun a t _ => fits_modelRead a t
  | modelLock args => exact State.keeps_request s _ args _ fun a t h => fits_modelLock a t (unset h)
  | storeClear args => exact State.keeps_request s _ args _ fun a t h => fits_storeClear a t (unset h)
  | heaterTrim args => exact State.keeps_request s _ args _ fun a t _ => fits_heaterTrim a t
  | rackQuiesce args => exact State.keeps_request s _ args _ fun a t _ => fits_rackQuiesce a t
  | rackWake args => exact State.keeps_request s _ args _ fun a t _ => fits_rackWake a t
  | budgetLook args => exact State.keeps_request s _ args _ fun a t _ => fits_budgetLook a t
  | rackSetup args => exact State.keeps_request s _ args _ fun a t h => fits_rackSetup a t (Gate.unsetOrSet_refusal h)
  | rackStatus args => exact State.keeps_request s .always args _ fun a t _ => fits_rackStatus a t
  | rackRestart args => exact State.keeps_request s _ args _ fun a t h => fits_rackRestart a t (unset h)
  | notices args => exact State.keeps_request s _ args _ fun a t _ => fits_notices a t
  | unknownRequest code =>
    exact State.keeps_request s .setOnly (some NoArgs.mk) (fun _ s => refuse s .unknown) fun _ t _ => State.fits_same t _
  | badFrame f => exact (State.keeps_settled s).trans (State.keeps_onFrame fun t _ => State.fits_same t _)
  | _ => exact State.Keeps.refl s

/-! ## SEL periods (R217, R218, R220) -/

/-- A SEL period as the port keeps it (R216 to R220). -/
def SelPeriod.safe (collided : Bool) (d : SelPeriod) : Prop :=
  (d.collided = true → collided = true) ∧ d.readPosition ≤ d.dout.length ∧ d.bits.length < 8 ∧
    (d.clk = false → d.doutBit = d.nextBit) ∧ ∀ received, d.frameIn = some received → judgeFrame received = .incomplete

theorem Port.safe_period {p : Port} {d : SelPeriod} (h : p.safe) (hd : p.period = some d) : d.safe p.collided := h.2 d hd

/-- The port with another period. -/
theorem Port.safe_withPeriod {p : Port} {d : SelPeriod} (h : p.safe) (hd : d.safe p.collided) :
    ({ p with period := some d } : Port).safe := ⟨h.1, fun _ he => Option.some.inj he ▸ hd⟩

/-- A change of the port alone that leaves the rack state. -/
theorem State.keeps_port {s : State} {p : Port} (rackState : p.rackState = s.port.rackState)
    (safe : s.port.safe → p.safe) : State.Keeps s { s with port := p } :=
  ⟨.refl, safe, State.storeSafe_of_same rackState rfl⟩

theorem State.keeps_selFall (s : State) : State.Keeps s s.selFall := by
  unfold State.selFall
  split
  · exact .refl s
  · refine State.keeps_port rfl fun safe => Port.safe_withPeriod safe ⟨by simp [State.newPeriod], ?_, ?_, fun _ => rfl, ?_⟩
    · simp [State.newPeriod]
    · simp [State.newPeriod]
    · intro received h
      obtain rfl : [] = received := by simpa [State.newPeriod] using h
      rfl

theorem State.keeps_selRise (s : State) : State.Keeps s s.selRise :=
  State.keeps_port rfl fun safe => ⟨safe.1, fun d h => by simp at h⟩

theorem State.keeps_fallingEdge {s : State} {d : SelPeriod} (hd : s.port.period = some d) :
    State.Keeps s (s.fallingEdge d) := by
  refine State.keeps_port rfl fun safe => Port.safe_withPeriod safe ?_
  obtain ⟨shows, position, bits, -, frame⟩ := Port.safe_period safe hd
  exact ⟨shows, position, bits, fun _ => rfl, frame⟩

/-- A byte is shifted out (R220). -/
theorem Port.safe_shiftOut {p : Port} {d : SelPeriod} (hd : p.period = some d) (clk : d.clk = true) (h : p.safe) :
    p.shiftOut.safe := by
  obtain ⟨shows, position, bits, bit, frame⟩ := Port.safe_period h hd
  have shifted : ∀ b, (d.collided = true → b = true) → d.shift.safe b := fun b hb =>
    ⟨hb, by simp, bits, fun low => by simp [clk] at low, frame⟩
  unfold Port.shiftOut
  rw [hd]
  dsimp only
  split
  · next reads =>
    have clear : d.collided = false := by
      simp only [SelPeriod.readsAnswer, Bool.and_eq_true, Bool.not_eq_true'] at reads
      exact reads.2
    exact ⟨by simp, fun e he => Option.some.inj he ▸ shifted _ (by simp [clear])⟩
  · exact Port.safe_withPeriod h (shifted _ shows)

/-- A DIN byte joins the frame in, or completes it (R217, R218). -/
theorem State.keeps_receive (s : State) (b : Byte) : State.Keeps s (s.receive b) := by
  unfold State.receive
  split
  · exact .refl s
  · next d hd =>
    split
    · exact .refl s
    · next received _ =>
      split
      · next c _ => exact State.keeps_frameMeaning c s
      · refine State.keeps_port rfl fun safe => Port.safe_withPeriod safe ?_
        obtain ⟨shows, position, bits, bit, -⟩ := Port.safe_period safe hd
        refine ⟨shows, position, bits, bit, fun x hx => ?_⟩
        change frameInAfter (received ++ [b]) = some x at hx
        unfold frameInAfter at hx
        split at hx
        · next h => exact Option.some.inj hx ▸ h
        all_goals simp at hx

theorem State.keeps_risingEdge {s : State} {d : SelPeriod} (hd : s.port.period = some d) (din : Bool) :
    State.Keeps s (s.risingEdge d din) := by
  unfold State.risingEdge
  extract_lets bits t
  split
  · next short =>
    refine State.keeps_port rfl fun safe => Port.safe_withPeriod safe ?_
    obtain ⟨shows, position, -, -, frame⟩ := Port.safe_period safe hd
    exact ⟨shows, position, short, fun low => by simp at low, frame⟩
  · refine State.Keeps.trans (State.keeps_port (p := t.port.shiftOut) (by simp [t]) fun safe => ?_) (State.keeps_receive _ _)
    refine Port.safe_shiftOut (d := { d with clk := true, bits := [] }) rfl rfl (Port.safe_withPeriod safe ?_)
    obtain ⟨shows, position, -, -, frame⟩ := Port.safe_period safe hd
    exact ⟨shows, position, by simp, fun low => by simp at low, frame⟩

theorem State.keeps_clock (s : State) (x : LinkLevels) : State.Keeps s (s.clock x) := by
  unfold State.clock
  split
  · exact .refl s
  · next d hd =>
    split
    · exact State.keeps_risingEdge hd _
    · exact State.keeps_fallingEdge hd
    · exact .refl s
    · exact .refl s

theorem State.keeps_clocks (link : List LinkLevels) (s : State) : State.Keeps s (link.foldl State.clock s) := by
  induction link generalizing s with
  | nil => exact .refl s
  | cons x l ih => exact (State.keeps_clock s x).trans (ih _)

/-! ## The ends of the store's own work (R83, R85, R87, R89) -/

theorem ModelSlot.checkedState_ne_programming (bad : Bool) (x : ModelSlot) : x.checkedState bad ≠ .programming := by
  unfold ModelSlot.checkedState
  cases x.progress <;> cases bad <;> cases x.lockMark <;> simp

theorem Store.write_checkSlots (bad : List ModelIx) (l : List ModelIx) (st : Store) :
    (l.foldl (Store.checkSlot bad) st).write = st.write ∧ (l.foldl (Store.checkSlot bad) st).staging = st.staging := by
  induction l generalizing st with
  | nil => exact ⟨rfl, rfl⟩
  | cons m l ih => exact ih (st.checkSlot bad m)

theorem mem_allModels (m : ModelIx) : m ∈ allModels := by revert m; decide

theorem nodup_allModels : allModels.Nodup := by decide

/-- Each model slot is checked once, from what it was (R89). -/
theorem Store.slot_checkSlots (bad : List ModelIx) (st : Store) (m : ModelIx) :
    (allModels.foldl (Store.checkSlot bad) st).slots[m] =
      { st.slots[m] with state := (st.slots[m]).checkedState (bad.contains m) } := by
  have one : ∀ (st : Store) (n : ModelIx), (st.checkSlot bad n).slots[m] =
      if m = n then { st.slots[m] with state := (st.slots[m]).checkedState (bad.contains m) } else st.slots[m] := by
    intro st n
    by_cases same : m = n
    · subst same; simp [Store.checkSlot]
    · have : n.val ≠ m.val := fun e => same (Fin.ext e.symm)
      simp [Store.checkSlot, this, same]
  have many : ∀ (l : List ModelIx) (st : Store), l.Nodup → (l.foldl (Store.checkSlot bad) st).slots[m] =
      if m ∈ l then { st.slots[m] with state := (st.slots[m]).checkedState (bad.contains m) } else st.slots[m] := by
    intro l
    induction l with
    | nil => simp
    | cons n l ih =>
      intro st nodup
      obtain ⟨new, nodup⟩ := List.nodup_cons.mp nodup
      rw [List.foldl_cons, ih _ nodup, one]
      by_cases same : m = n
      · subst same; simp [new]
      · simp [same]
  rw [many allModels st nodup_allModels, if_pos (mem_allModels m)]

theorem State.keeps_startupCheckEnd (s : State) (bad : List ModelIx) : State.Keeps s (s.startupCheckEnd bad) := by
  unfold State.startupCheckEnd
  split
  · next starting =>
    refine ⟨.refl, fun safe => safe, fun ⟨begin', _, _⟩ => ?_⟩
    obtain ⟨write, staging⟩ := begin' starting
    obtain ⟨write', staging'⟩ := Store.write_checkSlots bad allModels s.store
    refine ⟨fun h => by simp at h, fun _ m => ?_, fun m hm => ?_⟩
    · dsimp only
      rw [Store.slot_checkSlots, write', write]
      exact iff_of_false (ModelSlot.checkedState_ne_programming _ _) (by simp)
    · dsimp only at hm
      rw [staging', staging] at hm
      simp at hm
  · exact .refl s

/-- The rack state of a store that writes. -/
theorem State.started_of_write {s : State} {w : StoreWrite} (h : s.storeSafe) (hw : s.store.write = some w) :
    s.port.rackState ≠ .starting := fun start => by
  have := (h.1 start).1
  simp [hw] at this

theorem Rack.event_noticeFlag (r : Rack) (g : RackFlag) : Rack.Event r (r.noticeFlag g) := (r.moves_noticeFlag g).acts

theorem State.keeps_programmingEnd (s : State) (good : Bool) : State.Keeps s (s.programmingEnd good) := by
  unfold State.programmingEnd
  split
  · next m hm =>
    refine ⟨.single (Rack.event_noticeFlag _ _), id, fun safe => ?_⟩
    have started := State.started_of_write safe hm
    refine State.storeSafe_write (m := m) started started rfl (fun n other => ?_) (fun n _ => by simp [Store.endWrite])
      ?_ (fun y hy => hy) safe
    · rw [hm]; simpa using other.symm
    · cases good <;> simp [Store.endWrite]
  all_goals exact .refl s

theorem State.keeps_lockWriteEnd (s : State) : State.Keeps s s.lockWriteEnd := by
  unfold State.lockWriteEnd
  split
  · next m hm =>
    refine ⟨.refl, id, fun safe => ?_⟩
    have started := State.started_of_write safe hm
    have other := safe.2.1 started m
    rw [hm] at other
    exact State.storeSafe_write (m := m) started started rfl (fun n _ => by simp [hm])
      (fun n _ => by simp [State.withStore, Store.endWrite])
      (iff_of_false (fun p => by simpa using other.mp p) (by simp [State.withStore, Store.endWrite])) (fun y hy => hy) safe
  all_goals exact .refl s

theorem State.keeps_clearErase (s : State) : State.Keeps s s.clearErase := by
  unfold State.clearErase
  split
  · next m hm =>
    refine ⟨.refl, id, fun safe => ?_⟩
    have started := State.started_of_write safe hm
    exact State.storeSafe_write (m := m) started started rfl (fun n _ => by simp [hm]) (fun n _ => by simp [State.withStore])
      (by simp [State.withStore]) (fun y hy => hy) safe
  all_goals exact .refl s

/-- The clear takes its next slot, or ends (R87). -/
theorem State.keeps_clearNext {s : State} {m : ModelIx} (h : ∃ n b, s.store.write = some (.clear n b)) :
    State.Keeps s (s.clearNext m) := by
  obtain ⟨n, b, hw⟩ := h
  have kept : ∀ t : State, t.port.rackState = s.port.rackState → t.store.slots = s.store.slots →
      (∀ k, t.store.write ≠ some (.programming k)) → t.store.staging = s.store.staging → s.storeSafe → t.storeSafe := by
    intro t port slots write staging safe
    have started := State.started_of_write safe hw
    obtain ⟨-, programming, fits⟩ := safe
    refine ⟨fun start => absurd (port ▸ start) started, fun _ k => ?_, staging ▸ fits⟩
    rw [slots, programming started k]
    exact iff_of_false (by simp [hw]) (write k)
  unfold State.clearNext
  split
  · exact ⟨.refl, id, kept _ rfl rfl (by simp [State.withStore]) rfl⟩
  · exact ⟨.single (Rack.event_noticeFlag _ _), id, kept _ rfl rfl (by simp [Store.endWrite]) rfl⟩

theorem State.keeps_clearCheck (s : State) (erased : Bool) : State.Keeps s (s.clearCheck erased) := by
  unfold State.clearCheck
  split
  · next m hm =>
    refine State.Keeps.trans ?_ (State.keeps_clearNext ⟨m, true, hm⟩)
    refine ⟨.refl, id, fun safe => ?_⟩
    have started := State.started_of_write safe hm
    have own := safe.2.1 started m
    rw [hm] at own
    refine State.storeSafe_write (m := m) started started rfl (fun n _ => by simp [hm])
      (fun n _ => by simp [State.withStore, Store.modSlot, hm]) (iff_of_false ?_ (by simp [State.withStore, Store.modSlot, hm]))
      (fun y hy => hy) safe
    cases erased
    · simp
    · exact fun p => by simpa using own.mp p
  all_goals exact .refl s

/-! ## Every command -/

/-- An event of the rack, after the expiries still due. -/
theorem State.keeps_onRack (s : State) (event : Store → Rack → Rack)
    (h : ∀ r : Rack, Rack.Event r (event s.store r)) : State.Keeps s (s.onRack event) :=
  (State.keeps_settled s).trans (State.keeps_withRack (h _))

theorem State.keeps_onExpiry (s : State) (k : SlotIx) (e : Expiry) : State.Keeps s (s.onExpiry k e) := by
  refine State.keeps_withRack (r := s.rack.takeExpiry s.store k e) ?_
  unfold Rack.takeExpiry
  split
  · next due => exact Rack.acts_expire s.store e (.inr (.inl (Rack.ne_reset_of_due s.store due))) due
  · exact .refl _

theorem State.keeps_tick (s : State) : State.Keeps s s.tick := by
  unfold State.tick
  split
  · exact State.keeps_withRack (Rack.moves_tick s.store s.rack).acts
  · exact .refl s

/-- A command that is no hard reset. -/
theorem exec_keeps (c : Instr) (s : State) (h : ∀ w, c ≠ .hardReset w) : ∃ t, exec c s = .next t ∧ State.Keeps s t := by
  by_cases frame : (gateOf c).isSome = true ∨ ∃ f, c = .badFrame f
  · exact ⟨_, exec_of_frame frame s, State.keeps_frameMeaning c s⟩
  have input {k : SlotIx} (event : Store → Rack → Rack) (ok : ∀ r : Rack, r.reachable k → Rack.Event r (event s.store r)) :
      ∀ r : Rack, Rack.Event r (r.onInput k (event s.store)) := fun r =>
    Rack.moves_onInput (fun use => .inl use) fun u => ok r u
  cases c with
  | hardReset w => exact absurd rfl (h w)
  | frameCollision =>
    refine ⟨_, rfl, ?_⟩
    split
    · exact (State.keeps_settled s).trans (State.keeps_onFrame fun t _ => State.fits_same t _)
    · exact State.keeps_settled s
  | selFall => exact ⟨_, rfl, (State.keeps_settled s).trans (State.keeps_selFall _)⟩
  | selRise => exact ⟨_, rfl, (State.keeps_settled s).trans (State.keeps_selRise _)⟩
  | answerRead link => exact ⟨_, rfl, (State.keeps_settled s).trans (State.keeps_clocks link _)⟩
  | startupCheckEnd bad => exact ⟨_, rfl, (State.keeps_settled s).trans (State.keeps_startupCheckEnd _ bad)⟩
  | programmingEnd good => exact ⟨_, rfl, (State.keeps_settled s).trans (State.keeps_programmingEnd _ good)⟩
  | lockWriteEnd => exact ⟨_, rfl, (State.keeps_settled s).trans (State.keeps_lockWriteEnd _)⟩
  | storeClearSlotErase => exact ⟨_, rfl, (State.keeps_settled s).trans (State.keeps_clearErase _)⟩
  | storeClearSlotCheck erased => exact ⟨_, rfl, (State.keeps_settled s).trans (State.keeps_clearCheck _ erased)⟩
  | rackTick => exact ⟨_, rfl, (State.keeps_settled s).trans (State.keeps_tick _)⟩
  | stageTimerMatch k => exact ⟨_, rfl, State.keeps_onExpiry s k _⟩
  | heaterSwitch k => exact ⟨_, rfl, State.keeps_onExpiry s k _⟩
  | riseAllowanceExpiry k => exact ⟨_, rfl, State.keeps_onExpiry s k _⟩
  | sagAllowanceExpiry k => exact ⟨_, rfl, State.keeps_onExpiry s k _⟩
  | restEnd k => exact ⟨_, rfl, State.keeps_onExpiry s k _⟩
  | bootFailure k => exact ⟨_, rfl, State.keeps_onExpiry s k _⟩
  | hang k => exact ⟨_, rfl, State.keeps_onExpiry s k _⟩
  | hailTickWaitEnd k => exact ⟨_, rfl, State.keeps_onExpiry s k _⟩
  | railScan k n oc =>
    exact ⟨_, rfl, State.keeps_onRack s _ (input (fun st r => r.scan st k n oc) fun r u => Rack.acts_scan _ n oc u)⟩
  | latchOpen k =>
    exact ⟨_, rfl, State.keeps_onRack s _ (input (fun st r => r.sampleLatch st k false) fun r u => Rack.acts_sampleLatch _ _ u)⟩
  | latchClose k =>
    exact ⟨_, rfl, State.keeps_onRack s _ (input (fun st r => r.sampleLatch st k true) fun r u => Rack.acts_sampleLatch _ _ u)⟩
  | heartbeatEdge k level =>
    exact ⟨_, rfl, State.keeps_onRack s _ (input (fun _ r => r.modWatch k (Watch.sample level))
      fun r u => (Rack.moves_modWatch u).acts)⟩
  | benchHold k => exact ⟨_, rfl, State.keeps_onRack s _ fun r => Rack.acts_benchSample _ _ _ fun _ => id⟩
  | benchSeize k b => exact ⟨_, rfl, State.keeps_onRack s _ fun r => Rack.acts_benchSample _ _ _ fun _ => id⟩
  | holdWithdrawal k => exact ⟨_, rfl, State.keeps_onRack s _ fun r => Rack.acts_benchSample _ _ _ fun _ => id⟩
  | benchRelease k => exact ⟨_, rfl, State.keeps_onRack s _ fun r => Rack.acts_benchSample _ _ _ fun _ => id⟩
  | exchangeSpacingEnd k => exact ⟨_, rfl, State.keeps_onRack s _ fun r => Rack.acts_spacingEnd fun h => .inr (.inl h)⟩
  | echoReceived k looks =>
    exact ⟨_, rfl, State.keeps_onRack s _ fun r => Rack.acts_onChar fun x => Rack.acts_echo _ x fun h => .inr (.inl h)⟩
  | echoTimeout k => exact ⟨_, rfl, State.keeps_onRack s _ fun r => Rack.acts_echoTimeout _ fun h => .inr (.inl h)⟩
  | replyByteReceived k looks =>
    exact ⟨_, rfl, State.keeps_onRack s _ fun r => Rack.acts_onChar fun x => Rack.acts_reply _ x fun h => .inr (.inl h)⟩
  | replyTimeout k => exact ⟨_, rfl, State.keeps_onRack s _ fun r => Rack.acts_replyTimeout _ fun h => .inr (.inl h)⟩
  | strayCharacter k looks => exact ⟨_, rfl, State.keeps_settled s⟩
  | breakEnd k => exact ⟨_, rfl, State.keeps_onRack s _ fun r => Rack.acts_breakEnd fun h => .inr (.inl h)⟩
  | settleEnd k => exact ⟨_, rfl, State.keeps_onRack s _ fun r => Rack.acts_settleEnd _ fun h => .inr (.inl h)⟩
  | _ => simp [gateOf] at frame

end Sys2Proof.Machine
end

section
/-! The state after a hard reset, and the invariants that every step keeps. -/

namespace Sys2Proof.Machine

/-! ## The state after reset -/

@[simp] theorem Rack.slot_reset (wide : Bool) (k : SlotIx) : (Rack.reset wide).slot k = Slot.reset := by
  simp [Rack.slot, Rack.reset]

theorem Rack.widthSafe_reset (wide : Bool) : (Rack.reset wide).widthSafe := fun _ =>
  ⟨fun k _ => Rack.slot_reset wide k, fun _ he => absurd he List.not_mem_nil,
    fun _ h => by rcases h with h | h <;> cases h⟩

theorem Rack.railSafe_reset (wide : Bool) : (Rack.reset wide).railSafe := fun k => by
  rw [Rack.slot_reset]
  exact ⟨fun on => absurd on (by decide), fun run => absurd run (by decide)⟩

theorem Rack.heldTotal_reset (wide : Bool) : (Rack.reset wide).heldTotal = 0 := by
  simp [Rack.heldTotal, allSlots, Slot.reset]

theorem Rack.usedEntries_reset (wide : Bool) : (Rack.reset wide).usedEntries = 0 := by
  simp [Rack.usedEntries, allSlots, Slot.suspectCount, Slot.reset]

theorem Rack.budgetSafe_reset (wide : Bool) : (Rack.reset wide).budgetSafe :=
  ⟨by rw [Rack.heldTotal_reset]; exact Nat.zero_le _, fun k h => absurd (by rw [Rack.slot_reset]; rfl) h,
    fun _ he => absurd he List.not_mem_nil, List.nodup_nil, List.Pairwise.nil⟩

theorem Rack.poolSafe_reset (wide : Bool) : (Rack.reset wide).poolSafe :=
  ⟨by rw [Rack.usedEntries_reset]; exact Nat.zero_le _, fun k => by
    rw [Rack.slot_reset]
    exact ⟨List.Pairwise.nil, List.nodup_nil⟩⟩

theorem Rack.lineSafe_reset (wide : Bool) : (Rack.reset wide).lineSafe := fun k => by
  rw [Rack.slot_reset]
  exact ⟨by decide, iff_of_false (by decide) (by cases wide <;> revert k <;> decide)⟩

theorem Port.safe_reset : Port.reset.safe := ⟨fun h => absurd h (by decide), fun _ h => by simp [Port.reset] at h⟩

/-- A port in STARTING over a store without a write and without a staging record. -/
theorem State.storeSafe_starting {s : State} (starting : s.port.rackState = .starting) (write : s.store.write = none)
    (staging : s.store.staging = none) : s.storeSafe :=
  ⟨fun _ => ⟨write, staging⟩, fun h => absurd starting h, fun _ h => by simp [staging] at h⟩

/-! ## A step -/

theorem step_nil {s : State} (h : s.pending = []) : step s = .next s := by
  unfold step
  rw [h]

theorem step_cons {s : State} {c : Instr} {rest : List Instr} (h : s.pending = c :: rest) :
    step s = exec c (s.withPending rest) := by
  unfold step
  rw [h]

/-- A step leaves the state, is a hard reset, or keeps what a command keeps. -/
theorem step_cases {s s' : State} (h : step s = .next s') :
    (∃ t wide, s' = State.hardReset t wide) ∨ State.Keeps s s' := by
  cases pending : s.pending with
  | nil =>
    rw [step_nil pending] at h
    obtain rfl : s = s' := by simpa using h
    exact .inr (State.Keeps.refl s)
  | cons c rest =>
    rw [step_cons pending] at h
    by_cases reset : ∃ wide, c = .hardReset wide
    · obtain ⟨wide, rfl⟩ := reset
      change Host.Outcome.next (State.hardReset (s.withPending rest) wide) = .next s' at h
      exact .inl ⟨_, wide, by simpa using h.symm⟩
    · obtain ⟨t, ran, keeps⟩ := exec_keeps c (s.withPending rest) fun wide e => reset ⟨wide, e⟩
      rw [ran] at h
      obtain rfl : t = s' := by simpa using h
      exact .inr ⟨keeps.rack, keeps.port, keeps.store⟩

/-- An invariant of the rack that holds after reset and in every event holds after every step. -/
theorem step_keeps_rack {I : Rack → Prop} (reset : ∀ wide, I (Rack.reset wide))
    (event : ∀ r r', Rack.Event r r' → I r → I r') (s s' : State) (safe : I s.rack) (h : step s = .next s') : I s'.rack := by
  rcases step_cases h with ⟨t, wide, rfl⟩ | keeps
  · exact reset wide
  · exact keeps_of_reflTransGen event keeps.rack safe

/-! ## The obligations -/

/-- Settles O1. -/
theorem stepTakesTheFrontCommand : Obligations.StepTakesTheFrontCommand :=
  ⟨fun _ _ _ => step_cons, fun _ => step_nil⟩

/-- Settles O3. -/
theorem resetStateHasTheInvariants : Obligations.ResetStateHasTheInvariants :=
  ⟨Port.safe_reset, State.storeSafe_starting rfl rfl rfl, Rack.widthSafe_reset true, Rack.railSafe_reset true,
    Rack.budgetSafe_reset true, Rack.poolSafe_reset true, Rack.lineSafe_reset true⟩

/-- Settles O4, from what each command keeps. -/
theorem everyStepKeepsPortAndStore : Obligations.EveryStepKeepsPortAndStore := by
  refine ⟨fun s s' safe h => ?_, fun s s' safe h => ?_⟩
  · rcases step_cases h with ⟨t, wide, rfl⟩ | keeps
    · exact Port.safe_reset
    · exact keeps.port safe
  · rcases step_cases h with ⟨t, wide, rfl⟩ | keeps
    · exact State.storeSafe_starting rfl rfl rfl
    · exact keeps.store safe

/-- Settles O5: an event reaches no slot outside the width. -/
theorem everyStepKeepsUnusedSlotsAtReset : Obligations.EveryStepKeepsUnusedSlotsAtReset :=
  step_keeps_rack Rack.widthSafe_reset fun _ _ event safe => (event.keeps_widthSafe (Rack.widthSafeOn_reachable safe)).1

/-- Settles O6, from the changes of a slot that an event is made of. -/
theorem everyStepKeepsRailsUnderRunsAndLatches : Obligations.EveryStepKeepsRailsUnderRunsAndLatches :=
  step_keeps_rack Rack.railSafe_reset fun _ _ event => event.keeps_railSafe

/-- Settles O7, from the changes of a slot that an event is made of. -/
theorem everyStepKeepsTheBudget : Obligations.EveryStepKeepsTheBudget :=
  step_keeps_rack Rack.budgetSafe_reset fun _ _ event => event.keeps_budgetSafe

/-- Settles O8, from the changes of a slot that an event is made of. -/
theorem everyStepKeepsThePoolInOrder : Obligations.EveryStepKeepsThePoolInOrder :=
  step_keeps_rack Rack.poolSafe_reset fun _ _ event => event.keeps_poolSafe

/-- Settles O9, from the changes of a slot that an event is made of. -/
theorem everyStepKeepsTheLines : Obligations.EveryStepKeepsTheLines :=
  step_keeps_rack Rack.lineSafe_reset fun _ _ event => event.keeps_lineSafe

end Sys2Proof.Machine
end

section
/-! The hard reset, the frames that the port itself answers, and the requests of the rack that read or set it. -/

namespace Sys2Proof.Machine

/-! ## The hard reset (R227) -/

/-- A line that drives nothing and is not joined shows the level of its board. -/
theorem Rack.snsLevel_reset (wide : Bool) (k : SlotIx) (i : Nat) (boardLow stationLow : Bool) :
    (Rack.reset wide).snsLevel k i boardLow stationLow = !boardLow := by
  rw [Rack.snsLevel, Rack.slot_reset]
  change (!(false || (boardLow || (false && stationLow)))) = !boardLow
  simp

theorem Rack.heaterDuty_reset (wide : Bool) (k : SlotIx) : (Rack.reset wide).heaterDuty k = 0 :=
  Rack.heaterDuty_of_phase_none (Rack.phase_empty (by rw [Rack.slot_reset]; rfl))

/-- Settles O2. -/
theorem hardResetGivesTheResetValues : Obligations.HardResetGivesTheResetValues := by
  intro s wide
  refine ⟨s.hardReset wide, rfl, rfl, rfl, rfl, rfl, rfl, rfl, rfl, rfl, rfl, fun k => ?_, rfl, rfl, rfl, rfl, rfl, rfl, rfl,
    rfl, rfl, rfl, rfl, rfl⟩
  change _ ∧ ((Rack.reset wide).slot k).record = none ∧ _
  refine ⟨Rack.snsLevel_reset wide k, ?_⟩
  simp only [State.hardReset, Rack.slot_reset, Rack.heaterDuty_reset]
  exact ⟨rfl, rfl, rfl, rfl, rfl, rfl, rfl, rfl, rfl, rfl, rfl, rfl, rfl, rfl, trivial⟩

/-! ## Frames that the port itself answers (R218, R219, R222, R223) -/

/-- Settles O10. -/
theorem framesWithoutARequestAreAnswered : Obligations.FramesWithoutARequestAreAnswered := by
  refine ⟨fun s f h => ?_, fun s code h => ?_⟩
  · change Host.Outcome.next (s.settled.onFrame fun s => refuse s .badFrame) = _
    rw [State.onFrame_listening h, State.after_refuse]
  · change Host.Outcome.next (s.request .setOnly (some NoArgs.mk) fun _ s => refuse s .unknown) = _
    rw [State.request_taken h, State.after_refuse]

/-- A row with a gate is a request behind that gate. -/
theorem exec_of_gate {c : Instr} {g : Gate} (h : gateOf c = some g) (s : State) :
    ∃ (α : Type) (args : Body α) (owner : α → State → Reply), exec c s = .next (s.request g args owner) := by
  unfold gateOf at h
  split at h <;> cases h <;> exact ⟨_, _, _, rfl⟩

/-- A body that does not fit gives a request without arguments. -/
theorem exec_of_misfit {c : Instr} (h : misfitBody c = true) (s : State) :
    ∃ (α : Type) (g : Gate) (owner : α → State → Reply), exec c s = .next (s.request g none owner) := by
  unfold misfitBody at h
  split at h
  case h_33 => cases h
  all_goals exact ⟨_, _, _, rfl⟩

/-- The refusal of a gate is the port's, whatever the arguments. -/
theorem exec_gated {c : Instr} {g : Gate} {s : State} {status : Status} (gate : gateOf c = some g) (listening : s.listening)
    (refused : g.refusal s.port.rackState = some status) : exec c s = .next (s.answered status []) := by
  obtain ⟨α, args, owner, ran⟩ := exec_of_gate gate s
  rw [ran, State.request_gated listening refused]

/-- Settles O12. -/
theorem thePortAnswersBeforeTheOwner : Obligations.ThePortAnswersBeforeTheOwner := by
  refine ⟨fun s c g listening gate => ⟨fun starting other => exec_gated gate listening ?_,
    fun unset only => exec_gated gate listening ?_⟩, fun s c taken misfit => ?_⟩
  · rw [starting]
    cases g with
    | always => exact absurd rfl other
    | unsetOrSet | setOnly => rfl
  · rw [unset, only]
    rfl
  · obtain ⟨α, g, owner, ran⟩ := exec_of_misfit misfit s
    rw [ran, State.request_misfit taken]

/-- A frame that completes with an answer pending is discarded and marks the collision. -/
theorem State.onFrame_collided {s : State} (quiet : s.quiet) (assembling : s.port.assembling = true)
    (pending : s.port.answer.isSome = true) (act : State → Reply) :
    s.settled.onFrame act = { s with port := s.port.complete.collide } := by
  rw [State.settled_of_quiet quiet, State.onFrame, if_pos assembling]
  exact if_pos pending

/-- A row that is a frame acts when the frame completes. -/
theorem exec_onFrame {c : Instr} {s : State} (pending : s.port.answer.isSome = true)
    (h : (gateOf c).isSome = true ∨ c = .frameCollision ∨ ∃ f, c = .badFrame f) :
    ∃ act, exec c s = .next (s.settled.onFrame act) := by
  rcases h with gate | rfl | ⟨f, rfl⟩
  · obtain ⟨g, hg⟩ := Option.isSome_iff_exists.mp gate
    obtain ⟨α, args, owner, ran⟩ := exec_of_gate hg s
    exact ⟨_, ran⟩
  · exact ⟨fun s => refuse s .none, congrArg Host.Outcome.next (if_pos pending)⟩
  · exact ⟨_, rfl⟩

/-- Settles O11. -/
theorem aFrameMeetingAnAnswerIsDiscarded : Obligations.AFrameMeetingAnAnswerIsDiscarded := by
  intro s c quiet assembling pending frame
  obtain ⟨act, ran⟩ := exec_onFrame pending frame
  rw [State.onFrame_collided quiet assembling pending] at ran
  refine ⟨_, ran, rfl, rfl, fun d hd => ?_, ?_, rfl, rfl, rfl, rfl, rfl, rfl⟩
  · change Option.map _ (Option.map _ s.port.period) = _
    rw [hd]
    rfl
  · change Port.assembling { s.port.complete.collide with } = false
    unfold Port.assembling Port.collide Port.complete
    cases s.port.period <;> rfl

/-! ## A request that the port lets through (R223) -/

/-- A request with good arguments reaches its owner when the gate lets it through. -/
theorem State.request_through {α : Type} {s : State} {g : Gate} (h : s.listening) (through : g.refusal s.port.rackState = none)
    (a : α) (owner : α → State → Reply) : s.request g (some a) owner = State.after (owner a s.completed) := by
  simp only [State.request, State.onFrame_listening h, State.rackState_completed, through]

theorem Gate.unsetOrSet_through {rackState : RackState} (h : rackState ≠ .starting) :
    Gate.unsetOrSet.refusal rackState = none := by
  cases rackState with
  | starting => exact absurd rfl h
  | unset | set => rfl

/-- Settles O14. -/
theorem noticesAnswersAndEmptiesTheSet : Obligations.NoticesAnswersAndEmptiesTheSet := by
  intro s h started
  refine ⟨s.withRack { s.rack with notices := ⟨0, 0⟩ }, ?_, rfl, rfl⟩
  change Host.Outcome.next (s.request .unsetOrSet (some ⟨⟩) notices) = _
  rw [State.request_through h (Gate.unsetOrSet_through started)]
  rfl

/-! ## RACK SETUP and RACK STATUS (R229, R231) -/

theorem within_iff {low high n : Nat} : within low high n = true ↔ low ≤ n ∧ n ≤ high := by
  simp [within]

theorem within_eq_false {low high n : Nat} : within low high n = false ↔ n < low ∨ high < n := by
  rw [← Bool.not_eq_true, within_iff]
  omega

theorem Rack.anyInRun_iff {r : Rack} : r.anyInRun = true ↔ ∃ k, (r.slot k).inRun = true := by
  simp [Rack.anyInRun, mem_allSlots]

theorem rackSetup_bad {a : SetupArgs} {s : State}
    (h : tickArg a.tick = none ∨ attentionArg a.attention = none ∨ a.budget.toNat = 0 ∨ 32 < a.budget.toNat) :
    rackSetup a s = badArg s := by
  unfold rackSetup
  split
  · next tick attention ht ha =>
    rw [if_pos]
    have := (h.resolve_left (by simp [ht])).resolve_left (by simp [ha])
    simp only [Bool.not_eq_true', within_eq_false]
    omega
  · rfl

/-- A setup whose arguments are good is refused with BUSY when it would change the tick or the budget of a run. -/
theorem rackSetup_good {a : SetupArgs} {s : State} {tick : TickLength} {attention : Bool} (ht : tickArg a.tick = some tick)
    (ha : attentionArg a.attention = some attention) (low : 1 ≤ a.budget.toNat) (high : a.budget.toNat ≤ 32) :
    rackSetup a s =
      if (s.port.tick ≠ some tick ∨ s.rack.budget ≠ some a.budget.toNat) ∧ s.rack.anyInRun then refuse s .busy
      else done (s.setUp tick a.budget.toNat attention) [a.tick, a.budget, a.attention] := by
  unfold rackSetup
  rw [ht, ha]
  exact if_neg (by simp [within_iff.mpr ⟨low, high⟩])

theorem exec_rackSetup {s : State} (h : s.listening) (started : s.port.rackState ≠ .starting) (a : SetupArgs) :
    exec (.rackSetup (some a)) s = .next (State.after (rackSetup a s.completed)) := by
  change Host.Outcome.next (s.request .unsetOrSet (some a) rackSetup) = _
  rw [State.request_through h (Gate.unsetOrSet_through started)]

theorem exec_rackStatus {s : State} (h : s.listening) :
    exec (.rackStatus (some ⟨⟩)) s = .next (s.answered .done (statusBody s.completed)) := by
  change Host.Outcome.next (s.request .always (some ⟨⟩) rackStatus) = _
  rw [State.request_through h rfl]
  rfl

theorem halfBytes_eq (h : Half) : halfBytes h = [byte (h.toNat / 256), byte h.toNat] := by
  simp [halfBytes, bytes]

/-- The body of RACK STATUS, field by field. -/
theorem statusBody_eq (s : State) : statusBody s = [byte s.port.rackState.code, byte s.rack.quiesce.code]
    ++ (match s.port.tick with | none => [0, 0] | some t => [1, byte t.code])
    ++ (match s.rack.budget with | none => [0, 0] | some n => [1, byte n])
    ++ [byte (allSlots.map fun k => (s.rack.slot k).units).sum, byte s.rack.queue.length]
    ++ (s.store.slots.toList.flatMap fun m =>
        if s.port.rackState = .starting then [0, 0] else [1, byte m.state.code])
    ++ [if s.rack.wide then 0 else 1] ++ [byte (s.caseCounter.toNat / 256), byte s.caseCounter.toNat] := by
  have ticks : marked 1 (s.port.tick.map fun t => [byte t.code]) =
      match s.port.tick with | none => [0, 0] | some t => [1, byte t.code] := by
    cases s.port.tick <;> rfl
  have budgets : marked 1 (s.rack.budget.map fun n => [byte n]) =
      match s.rack.budget with | none => [0, 0] | some n => [1, byte n] := by
    cases s.rack.budget <;> rfl
  have models : (s.store.slots.toList.map fun m =>
        marked 1 (if s.port.rackState = .starting then none else some [byte m.state.code])).flatten =
      s.store.slots.toList.flatMap fun m => if s.port.rackState = .starting then [0, 0] else [1, byte m.state.code] := by
    rw [List.flatMap_def]
    split <;> rfl
  rw [← ticks, ← budgets, ← models, ← halfBytes_eq]
  rfl

theorem length_flatMap_two {α : Type} (f : α → List Byte) (h : ∀ x, (f x).length = 2) (l : List α) :
    (l.flatMap f).length = 2 * l.length := by
  induction l with
  | nil => rfl
  | cons x xs ih => rw [List.flatMap_cons, List.length_append, h, ih, List.length_cons]; omega

/-- Settles O15. -/
theorem setupAndStatusOfTheRack : Obligations.SetupAndStatusOfTheRack := by
  refine ⟨fun s a h started => ⟨fun bad => ?_, fun tick attention ht ha low high => ⟨fun inRun changes => ?_, fun free => ?_⟩⟩,
    fun s h => ?_⟩
  · rw [exec_rackSetup h started, rackSetup_bad bad, State.after_badArg]
  · rw [exec_rackSetup h started, rackSetup_good ht ha low high, if_pos ⟨changes, Rack.anyInRun_iff.mpr inRun⟩,
      State.after_refuse]
  · refine ⟨s.setUp tick a.budget.toNat attention, ?_, rfl⟩
    rw [exec_rackSetup h started, rackSetup_good ht ha low high, if_neg]
    · rfl
    · rintro ⟨changes, inRun⟩
      obtain ⟨k, hk⟩ := Rack.anyInRun_iff.mp inRun
      rcases free with none | ⟨sameTick, sameBudget⟩
      · exact absurd hk (by simp [none k])
      · exact changes.elim (· sameTick) (· sameBudget)
  · refine ⟨_, exec_rackStatus h, ?_, statusBody_eq s.completed⟩
    have models : (s.store.slots.toList.flatMap fun m =>
        if s.port.rackState = .starting then ([0, 0] : List Byte) else [1, byte m.state.code]).length = 16 := by
      rw [length_flatMap_two _ fun m => by split <;> rfl]
      simp
    rw [statusBody_eq]
    simp only [List.length_append, List.length_cons, List.length_nil]
    rw [State.store_completed, State.rackState_completed, models]
    cases s.completed.port.tick <;> cases s.completed.rack.budget <;> rfl

end Sys2Proof.Machine
end

section
/-! The bits and bytes of a SEL period: DOUT, DIN and the edges of CLK (R216 to R222). -/

namespace Sys2Proof.Machine

/-! ## DIN bytes -/

theorem State.receive_ignored {u : State} {e : SelPeriod} (period : u.port.period = some e) (frame : e.frameIn = none)
    (b : Byte) : u.receive b = u := by
  simp only [State.receive, period, frame]

theorem State.receive_command {u : State} {e : SelPeriod} {received : List Byte} {b : Byte} {c : Instr}
    (period : u.port.period = some e) (frame : e.frameIn = some received) (h : frameCommand (received ++ [b]) = some c) :
    u.receive b = nextOr u (frameMeaning c u) := by
  simp only [State.receive, period, frame, h]

theorem State.receive_noCommand {u : State} {e : SelPeriod} {received : List Byte} {b : Byte}
    (period : u.port.period = some e) (frame : e.frameIn = some received) (h : frameCommand (received ++ [b]) = none) :
    u.receive b = u.withPeriod { e with frameIn := frameInAfter (received ++ [b]) } := by
  simp only [State.receive, period, frame, h]

theorem frameCommand_idle {l : List Byte} (h : judgeFrame l = .idle) : frameCommand l = none ∧ frameInAfter l = none := by
  simp [frameCommand, frameInAfter, h]

theorem frameCommand_incomplete {l : List Byte} (h : judgeFrame l = .incomplete) :
    frameCommand l = none ∧ frameInAfter l = some l := by
  simp [frameCommand, frameInAfter, h]

/-! ## DOUT bytes -/

theorem Port.shiftOut_eq {p : Port} {d : SelPeriod} (h : p.period = some d) :
    p.shiftOut = if d.readsAnswer then { p with period := some d.shift, answer := none, collided := false }
      else { p with period := some d.shift } := by
  simp only [Port.shiftOut, h]

theorem SelPeriod.readsAnswer_iff {d : SelPeriod} :
    d.readsAnswer = true ↔ d.carriesAnswer = true ∧ d.readPosition + 1 = d.dout.length ∧ d.collided = false := by
  simp [SelPeriod.readsAnswer, and_assoc]

/-- The state in which the byte under way has been shifted out, before the DIN byte is taken. -/
def State.shifted (s : State) (d : SelPeriod) : State :=
  { s with port := Port.shiftOut { s.port with period := some { d with clk := true, bits := [] } } }

/-- The SEL period of that state. -/
def SelPeriod.shifted (d : SelPeriod) : SelPeriod :=
  { d with clk := true, bits := [], readPosition := min (d.readPosition + 1) d.dout.length }

theorem State.shifted_read {s : State} {d : SelPeriod} (h : d.readsAnswer = true) :
    s.shifted d = { s with port := { s.port with period := some d.shifted, answer := none, collided := false } } := by
  rw [State.shifted, Port.shiftOut_eq rfl]
  exact congrArg (fun p => { s with port := p }) (if_pos h)

theorem State.shifted_unread {s : State} {d : SelPeriod} (h : d.readsAnswer = false) :
    s.shifted d = s.withPeriod d.shifted := by
  rw [State.shifted, Port.shiftOut_eq rfl]
  exact congrArg (fun p => { s with port := p }) (if_neg (Bool.eq_false_iff.mp h))

theorem State.period_shifted (s : State) (d : SelPeriod) : (s.shifted d).port.period = some d.shifted := by
  cases h : d.readsAnswer with
  | true => rw [State.shifted_read h]
  | false => rw [State.shifted_unread h]; rfl

/-! ## The rows -/

theorem exec_selFall {s : State} (quiet : s.quiet) (h : s.port.period = none) :
    exec .selFall s = .next (s.withPeriod s.newPeriod) := by
  change Host.Outcome.next s.settled.selFall = _
  rw [State.settled_of_quiet quiet, State.selFall, h]
  rfl

theorem exec_answerRead {s : State} (quiet : s.quiet) (link : List LinkLevels) :
    exec (.answerRead link) s = .next (link.foldl State.clock s) := by
  change Host.Outcome.next (link.foldl State.clock s.settled) = _
  rw [State.settled_of_quiet quiet]

theorem exec_answerRead_whole {s : State} {d : SelPeriod} (quiet : s.quiet) (period : s.port.period = some d)
    (low : d.clk = false) (whole : d.bits.length = 7) (din : Bool) :
    exec (.answerRead [⟨true, din⟩]) s = .next ((s.shifted d).receive (byteOfBits (d.bits ++ [din]))) := by
  rw [exec_answerRead quiet]
  exact congrArg Host.Outcome.next ((State.clock_rise period low din).trans (State.risingEdge_whole s whole din))

/-- The bit whose turn it is, within the frame on DOUT. -/
theorem SelPeriod.nextBit_within {d : SelPeriod} (bits : d.bits.length < 8) (h : d.readPosition < d.dout.length) :
    d.nextBit = d.dout[d.readPosition].getLsbD (7 - d.bits.length) := by
  rw [SelPeriod.nextBit, List.getD_eq_getElem _ _ h, BitVec.getMsbD]
  simp [bits]

theorem SelPeriod.nextBit_past {d : SelPeriod} (h : d.dout.length ≤ d.readPosition) : d.nextBit = false := by
  rw [SelPeriod.nextBit, List.getD_eq_default _ _ h]
  simp

theorem getLsbD_byteOfBits : ∀ (b0 b1 b2 b3 b4 b5 b6 b7 : Bool) (i : Fin 8),
    (byteOfBits [b0, b1, b2, b3, b4, b5, b6, b7]).getLsbD (7 - i) = [b0, b1, b2, b3, b4, b5, b6, b7][i] := by
  decide +kernel

/-- Settles O13. -/
theorem selPeriodsShiftOutTheAnswer : Obligations.SelPeriodsShiftOutTheAnswer := by
  refine ⟨fun s quiet none => ?_, fun s quiet => ?_, fun _ => rfl, fun s link quiet none => ?_,
    fun s t before after quiet ran quiet' => ?_, fun s d din bits quiet period hbits => ?_,
    fun d bits => ⟨SelPeriod.nextBit_within bits, SelPeriod.nextBit_past⟩, fun bits i hi whole => ?_⟩
  · refine ⟨s.newPeriod, exec_selFall quiet none, rfl, rfl, rfl, rfl, rfl, rfl, rfl, fun h => ?_, fun a h => ?_⟩
    all_goals
      change s.doutFrame = _
      simp only [State.doutFrame, h]
  · change Host.Outcome.next s.settled.selRise = _
    rw [State.settled_of_quiet quiet]
    rfl
  · rw [exec_answerRead quiet, State.clocks_none none]
  · rw [exec_answerRead quiet] at ran
    obtain rfl : before.foldl State.clock s = t := by simpa using ran
    rw [exec_answerRead quiet, exec_answerRead quiet', List.foldl_append]
  · subst hbits
    refine ⟨?_, fun high => ?_, fun low short => ?_, fun low whole => ?_⟩
    · rw [exec_answerRead quiet]
      exact congrArg Host.Outcome.next (State.clock_same period rfl)
    · rw [exec_answerRead quiet]
      exact congrArg Host.Outcome.next (State.clock_fall period high din)
    · rw [exec_answerRead quiet]
      exact congrArg Host.Outcome.next ((State.clock_rise period low din).trans (State.risingEdge_partial s short din))
    · have ran := exec_answerRead_whole quiet period low whole din
      have at' := s.period_shifted d
      refine ⟨s.shifted d, d.shifted, at', rfl, fun carries last clear => ?_, fun h => ?_, fun frame => ?_,
        fun received frame => ⟨fun c hc => ?_, fun idle => ?_, fun incomplete => ?_⟩⟩
      · have read := State.shifted_read (s := s) (SelPeriod.readsAnswer_iff.mpr ⟨carries, last, clear⟩)
        exact ⟨read, by rw [read]; rfl⟩
      · refine State.shifted_unread (Bool.eq_false_iff.mpr fun read => ?_)
        obtain ⟨carries, last, clear⟩ := SelPeriod.readsAnswer_iff.mp read
        rcases h with h | h | h
        · simp [carries] at h
        · exact h last
        · simp [clear] at h
      · rw [ran, State.receive_ignored at' frame]
      · rw [ran, State.receive_command at' frame hc, exec_of_frame (frameCommand_is_frame hc)]
      · obtain ⟨command, after⟩ := frameCommand_idle idle
        rw [ran, State.receive_noCommand at' frame command, after]
      · obtain ⟨command, after⟩ := frameCommand_incomplete incomplete
        rw [ran, State.receive_noCommand at' frame command, after]
  · match bits, whole with
    | [b0, b1, b2, b3, b4, b5, b6, b7], _ => exact getLsbD_byteOfBits b0 b1 b2 b3 b4 b5 b6 b7 ⟨i, hi⟩

end Sys2Proof.Machine
end

section
/-! Request frames decode to their requests (R218, R219, R233). -/

namespace Sys2Proof.Machine

/-! ## Frames -/

theorem toNat_byte_length {body : List Byte} (h : body.length ≤ 250) : (byte body.length).toNat = body.length := by
  rw [toNat_byte]
  omega

/-- A frame with a code other than 0 and a body of at most 250 bytes is judged by its check byte. -/
theorem judgeFrame_whole {code : Byte} {body : List Byte} (check : Byte) (rest : List Byte) (hc : code ≠ 0)
    (hb : body.length ≤ 250) :
    judgeFrame (code :: byte body.length :: (body ++ check :: rest)) =
      if crc8 (code :: byte body.length :: body) = check then .good code body else .faulty .crc := by
  have len := toNat_byte_length hb
  have short : ¬ (byte body.length).toNat > 250 := by omega
  unfold judgeFrame
  dsimp only
  rw [if_neg hc, if_neg short, len]
  simp

theorem frameCommand_good {code check : Byte} {body : List Byte} (rest : List Byte) (hc : code ≠ 0)
    (hb : body.length ≤ 250) (h : check = crc8 (code :: byte body.length :: body)) :
    frameCommand (code :: byte body.length :: (body ++ check :: rest)) = some (requestOf code body) := by
  rw [frameCommand, judgeFrame_whole check rest hc hb, if_pos h.symm]

theorem frameCommand_badCheck {code check : Byte} {body : List Byte} (rest : List Byte) (hc : code ≠ 0)
    (hb : body.length ≤ 250) (h : check ≠ crc8 (code :: byte body.length :: body)) :
    frameCommand (code :: byte body.length :: (body ++ check :: rest)) = some (.badFrame .crc) := by
  rw [frameCommand, judgeFrame_whole check rest hc hb, if_neg h.symm]

theorem frameCommand_badLength {code len : Byte} (rest : List Byte) (hc : code ≠ 0) (h : 250 < len.toNat) :
    frameCommand (code :: len :: rest) = some (.badFrame .length) := by
  have judged : judgeFrame (code :: len :: rest) = .faulty .length := by
    unfold judgeFrame
    dsimp only
    rw [if_neg hc, if_pos h]
  rw [frameCommand, judged]

theorem frameCommand_idleCode (rest : List Byte) : frameCommand (0 :: rest) = none := by
  cases rest <;> rfl

theorem requestOf_unknown {code : Byte} (h : isRequestCode code = false) (body : List Byte) :
    requestOf code body = .unknownRequest code := by
  unfold requestOf
  split
  case h_31 => rfl
  all_goals
    next code' => simp [isRequestCode, code'] at h

/-! ## Fields at the end of a body -/

theorem takeHalf_last (h : Half) : takeHalf (bytes 2 h.toNat) = some (h, []) := by
  simpa using takeHalf_bytes h []

theorem takeString_last {s : List Byte} (h : s.length ≤ 255) : takeString (byte s.length :: s) = some (s, []) := by
  simpa using takeString_bytes h []

/-- A parser goes on after a field that is there. -/
theorem takeByte_bind {α : Type} (b : Byte) (rest : List Byte) (f : Byte × List Byte → Option α) :
    (takeByte (b :: rest) >>= f) = f (b, rest) := rfl

theorem takeHalf_bind {α : Type} (h : Half) (rest : List Byte) (f : Half × List Byte → Option α) :
    (takeHalf (bytes 2 h.toNat ++ rest) >>= f) = f (h, rest) := by
  rw [takeHalf_bytes]
  rfl

theorem takeString_bind {α : Type} {s : List Byte} (h : s.length ≤ 255) (rest : List Byte)
    (f : List Byte × List Byte → Option α) : (takeString (byte s.length :: (s ++ rest)) >>= f) = f (s, rest) := by
  rw [takeString_bytes h]
  rfl

theorem parseNoArgs_long {body : List Byte} (h : body ≠ []) : parseNoArgs body = none := by
  cases body with
  | nil => exact absurd rfl h
  | cons b rest => rfl

theorem parseSlot_one (slot : Byte) : parseSlot [slot] = some ⟨slot⟩ := rfl

theorem parseSlot_misfit {body : List Byte} (h : body.length ≠ 1) : parseSlot body = none := by
  match body with
  | [] => rfl
  | [_] => exact absurd rfl h
  | _ :: _ :: _ => rfl

/-! ## Requests -/

theorem requestOf_caseOpen (slot model priority : Byte) {tag : List Byte} (h : tag.length ≤ 255) :
    requestOf 0x10 ([slot, model, byte tag.length] ++ tag ++ [priority]) = .caseOpen (some ⟨slot, model, tag, priority⟩) := by
  change Instr.caseOpen (parseCaseOpen _) = _
  simp [parseCaseOpen, takeByte, takeString_bytes h, whole]

theorem requestOf_caseLook (slot : Byte) (number : Half) :
    requestOf 0x16 [0, slot] = .caseLook (some (.bySlot slot)) ∧
      requestOf 0x16 (1 :: bytes 2 number.toNat) = .caseLook (some (.byNumber number)) := by
  refine ⟨rfl, ?_⟩
  change Instr.caseLook (parseCaseLook _) = _
  simp [parseCaseLook, takeByte, takeHalf_last, whole]

theorem requestOf_caseFind {tag : List Byte} (h : tag.length ≤ 255) :
    requestOf 0x17 (byte tag.length :: tag) = .caseFind (some ⟨tag⟩) := by
  change Instr.caseFind (parseCaseFind _) = _
  simp [parseCaseFind, takeString_last h, whole]

theorem requestOf_caseAmend (slot p : Byte) (stamp : Half) {tag : List Byte} (h : tag.length ≤ 255) :
    requestOf 0x18 ([slot] ++ bytes 2 stamp.toNat ++ [1, byte tag.length] ++ tag ++ [1, p, 1]) =
        .caseAmend (some ⟨slot, stamp, some tag, some p, true⟩) ∧
      requestOf 0x18 ([slot] ++ bytes 2 stamp.toNat ++ [0, 1, p, 0]) =
        .caseAmend (some ⟨slot, stamp, none, some p, false⟩) ∧
      requestOf 0x18 ([slot] ++ bytes 2 stamp.toNat ++ [0, 0, 1]) =
        .caseAmend (some ⟨slot, stamp, none, none, true⟩) := by
  refine ⟨?_, ?_, ?_⟩
  all_goals
    change Instr.caseAmend (parseCaseAmend _) = _
    simp [parseCaseAmend, takeByte, takeHalf_bytes, takeOptional, takeString_bytes h, takeMark, whole]

theorem requestOf_note (slot component : Byte) (stamp : Half) :
    requestOf 0x21 ([slot] ++ bytes 2 stamp.toNat ++ [component, 0]) =
        .suspectNoteFail (some ⟨slot, stamp, component⟩) ∧
      requestOf 0x21 ([slot] ++ bytes 2 stamp.toNat ++ [component, 1]) =
        .suspectNoteConfirm (some ⟨slot, stamp, component⟩) ∧
      requestOf 0x21 ([slot] ++ bytes 2 stamp.toNat ++ [component, 2]) =
        .suspectNoteClear (some ⟨slot, stamp, component⟩) := by
  have decoded : ∀ body, requestOf 0x21 body = parseNote body := fun _ => rfl
  refine ⟨?_, ?_, ?_⟩
  all_goals
    rw [decoded]
    simp [parseNote, takeByte, takeHalf_bytes, whole]

theorem requestOf_rework (slot component : Byte) (stamp : Half) (first last : Addr) :
    requestOf 0x23 ([slot] ++ bytes 2 stamp.toNat ++ [1] ++ bytes 3 first.toNat ++ bytes 3 last.toNat ++ [0]) =
        .rework (some ⟨slot, stamp, some (first, last), none⟩) ∧
      requestOf 0x23 ([slot] ++ bytes 2 stamp.toNat ++ [0, 1, component]) =
        .rework (some ⟨slot, stamp, none, some component⟩) := by
  refine ⟨?_, ?_⟩
  all_goals
    change Instr.rework (parseRework _) = _
    simp [parseRework, takeByte, takeHalf_bytes, takeAddr_bytes, takeOptional, takeRange, whole]

theorem requestOf_modelBegin (a : ModelBeginArgs) (h : a.name.length ≤ 255) :
    requestOf 0x30 (byte a.name.length :: a.name
        ++ [a.lineRate, a.retries, a.confirmThreshold, a.confirmSpread]
        ++ bytes 2 a.clearCount.toNat ++ bytes 2 a.bootAllowance.toNat
        ++ [a.strikeLimit, a.restTime, a.riseAllowance, a.sagAllowance, a.cycles, a.path, a.rail, a.hang]) =
      .modelBegin (some a) := by
  change Instr.modelBegin (parseModelBegin _) = _
  simp only [List.append_assoc, List.cons_append, List.nil_append, parseModelBegin]
  simp only [↓takeString_bind h, ↓takeHalf_bind, ↓takeByte_bind]
  rfl

theorem requestOf_addComponent (cls w : Byte) {designator : List Byte} (first last : Addr) (h : designator.length ≤ 255) :
    requestOf 0x31 (byte designator.length :: designator ++ [cls, 0, 0]) =
        .modelAddComponent (some ⟨designator, cls, none, none⟩) ∧
      requestOf 0x31 (byte designator.length :: designator ++ [cls, 1] ++ bytes 3 first.toNat ++ bytes 3 last.toNat
          ++ [0]) =
        .modelAddComponent (some ⟨designator, cls, some (first, last), none⟩) ∧
      requestOf 0x31 (byte designator.length :: designator ++ [cls, 1] ++ bytes 3 first.toNat ++ bytes 3 last.toNat
          ++ [1, w]) =
        .modelAddComponent (some ⟨designator, cls, some (first, last), some w⟩) := by
  refine ⟨?_, ?_, ?_⟩
  all_goals
    change Instr.modelAddComponent (parseAddComponent _) = _
    simp [parseAddComponent, takeByte, takeAddr_bytes, takeOptional, takeRange, takeString_bytes h, whole]

theorem requestOf_addStage (a : AddStageArgs) :
    requestOf 0x32 (bytes 3 a.duration.toNat ++ [a.margin, a.dutyA, a.dutyB] ++ bytes 2 a.halfPeriod.toNat
        ++ [a.units, a.program] ++ bytes 2 a.window.toNat) = .modelAddStage (some a) := by
  change Instr.modelAddStage (parseAddStage _) = _
  simp [parseAddStage, takeByte, takeHalf_bytes, takeHalf_last, takeAddr_bytes, whole]

theorem requestOf_addStep (a : AddStepArgs) :
    requestOf 0x33 ([a.program, a.kind] ++ bytes 3 a.start.toNat ++ bytes 2 a.count.toNat
        ++ [a.pattern, a.value, a.mask, a.bound]) = .modelAddStep (some a) := by
  change Instr.modelAddStep (parseAddStep _) = _
  simp [parseAddStep, takeByte, takeHalf_bytes, takeAddr_bytes, whole]

/-- Settles O60. -/
theorem framesDecodeToTheirRequests : Obligations.FramesDecodeToTheirRequests := by
  refine ⟨fun code check body rest hc hb => ⟨frameCommand_good rest hc hb, frameCommand_badCheck rest hc hb⟩,
    fun code len rest => frameCommand_badLength rest, frameCommand_idleCode, by decide +kernel,
    fun code body h => requestOf_unknown h body, fun make code h => ?_, fun make code slot h => ?_,
    fun slot model priority tag => requestOf_caseOpen slot model priority, requestOf_caseLook,
    fun tag => requestOf_caseFind, fun slot p stamp tag => requestOf_caseAmend slot p stamp, fun _ _ => rfl,
    requestOf_note, fun _ _ => rfl, requestOf_rework, requestOf_modelBegin,
    fun cls w designator => requestOf_addComponent cls w, requestOf_addStage, requestOf_addStep, fun _ => ⟨rfl, rfl⟩,
    fun _ _ _ => ⟨rfl, rfl, rfl, rfl⟩, fun _ _ => rfl, fun _ _ _ => rfl⟩
  · have decoded : ∀ body, requestOf code body = make (parseNoArgs body) := by
      simp only [List.mem_cons, Prod.mk.injEq, List.not_mem_nil, or_false] at h
      rcases h with ⟨rfl, rfl⟩ | ⟨rfl, rfl⟩ | ⟨rfl, rfl⟩ | ⟨rfl, rfl⟩ | ⟨rfl, rfl⟩ | ⟨rfl, rfl⟩ | ⟨rfl, rfl⟩ | ⟨rfl, rfl⟩
      all_goals exact fun _ => rfl
    exact ⟨decoded [], fun body long => by rw [decoded, parseNoArgs_long long]⟩
  · have decoded : ∀ body, requestOf code body = make (parseSlot body) := by
      simp only [List.mem_cons, Prod.mk.injEq, List.not_mem_nil, or_false] at h
      rcases h with ⟨rfl, rfl⟩ | ⟨rfl, rfl⟩ | ⟨rfl, rfl⟩ | ⟨rfl, rfl⟩ | ⟨rfl, rfl⟩
      all_goals exact fun _ => rfl
    exact ⟨by rw [decoded, parseSlot_one], fun body long => by rw [decoded, parseSlot_misfit long]⟩

end Sys2Proof.Machine
end

section
/-! The staging requests: argument ranges and the entries they append (R67 to R69, R75 to R79). -/

namespace Sys2Proof.Machine

/-- A row that is a request hands its arguments to the owner. -/
theorem exec_taken {α : Type} {s : State} (h : s.takesRequests) {c : Instr} {a : α} {owner : α → State → Reply}
    (row : exec c s = .next (s.request .setOnly (some a) owner)) : exec c s = .next (State.after (owner a s.completed)) := by
  rw [row, State.request_taken h]

/-! ## Ranges and choice codes -/

theorem stringArg_iff {most : Nat} {s : List Byte} : stringArg most s = true ↔
    1 ≤ s.length ∧ s.length ≤ most ∧ ∀ b ∈ s, 0x20 ≤ b.toNat ∧ b.toNat ≤ 0x7E := by
  simp [stringArg, printable, and_assoc]

theorem byte_le (b : Byte) : b.toNat ≤ 255 := Nat.le_of_lt_succ b.isLt

theorem half_le (h : Half) : h.toNat ≤ 65535 := Nat.le_of_lt_succ h.isLt

theorem lineRateArg_none {b : Byte} : lineRateArg b = none ↔ 3 < b.toNat := by
  unfold lineRateArg
  split <;> simp_all
  omega

theorem classArg_none {b : Byte} : classArg b = none ↔ 6 < b.toNat := by
  unfold classArg
  split <;> simp_all
  omega

theorem marginArg_none {b : Byte} : marginArg b = none ↔ 2 < b.toNat := by
  unfold marginArg
  split <;> simp_all
  omega

theorem lineRateArg_of_mem {b : Byte} {rate : LineRate}
    (h : (b.toNat, rate) ∈ [(0, LineRate.r9600), (1, LineRate.r19200), (2, LineRate.r57600), (3, LineRate.r115200)]) :
    lineRateArg b = some rate := by
  simp only [List.mem_cons, Prod.mk.injEq, List.not_mem_nil, or_false] at h
  rcases h with ⟨code, rfl⟩ | ⟨code, rfl⟩ | ⟨code, rfl⟩ | ⟨code, rfl⟩
  all_goals simp [lineRateArg, code]

theorem classArg_of_mem {b : Byte} {cls : ComponentClass}
    (h : (b.toNat, cls) ∈ [(0, ComponentClass.memory), (1, ComponentClass.storage), (2, ComponentClass.processor),
      (3, ComponentClass.io), (4, ComponentClass.power), (5, ComponentClass.clock), (6, ComponentClass.path)]) :
    classArg b = some cls := by
  simp only [List.mem_cons, Prod.mk.injEq, List.not_mem_nil, or_false] at h
  rcases h with ⟨code, rfl⟩ | ⟨code, rfl⟩ | ⟨code, rfl⟩ | ⟨code, rfl⟩ | ⟨code, rfl⟩ | ⟨code, rfl⟩ | ⟨code, rfl⟩
  all_goals simp [classArg, code]

theorem marginArg_of_mem {b : Byte} {margin : Margin}
    (h : (b.toNat, margin) ∈ [(0, Margin.nominal), (1, Margin.low), (2, Margin.high)]) : marginArg b = some margin := by
  simp only [List.mem_cons, Prod.mk.injEq, List.not_mem_nil, or_false] at h
  rcases h with ⟨code, rfl⟩ | ⟨code, rfl⟩ | ⟨code, rfl⟩
  all_goals simp [marginArg, code]

/-! ## MODEL BEGIN (R76) -/

/-- The fields of MODEL BEGIN but the line rate are in their ranges (R67). -/
def beginRange (a : ModelBeginArgs) : Prop :=
  (1 ≤ a.name.length ∧ a.name.length ≤ 12 ∧ ∀ b ∈ a.name, 0x20 ≤ b.toNat ∧ b.toNat ≤ 0x7E) ∧ a.retries.toNat ≤ 3 ∧
    1 ≤ a.confirmThreshold.toNat ∧ (1 ≤ a.confirmSpread.toNat ∧ a.confirmSpread.toNat ≤ 16) ∧ 1 ≤ a.bootAllowance.toNat ∧
    a.strikeLimit.toNat ≤ 15 ∧ 1 ≤ a.restTime.toNat ∧ 1 ≤ a.riseAllowance.toNat ∧ 1 ≤ a.sagAllowance.toNat ∧
    1 ≤ a.cycles.toNat ∧ (1 ≤ a.path.toNat ∧ a.path.toNat ≤ 24) ∧ (1 ≤ a.rail.toNat ∧ a.rail.toNat ≤ 24) ∧
    (1 ≤ a.hang.toNat ∧ a.hang.toNat ≤ 24)

/-- The header that the fields of MODEL BEGIN give. -/
def headerOf (a : ModelBeginArgs) (rate : LineRate) : Header :=
  ⟨a.name, rate, a.retries.toNat, a.confirmThreshold.toNat, a.confirmSpread.toNat, a.clearCount.toNat,
    a.bootAllowance.toNat, a.strikeLimit.toNat, a.restTime.toNat, a.riseAllowance.toNat, a.sagAllowance.toNat,
    a.cycles.toNat, a.path.toNat, a.rail.toNat, a.hang.toNat⟩

theorem headerArg_of_range {a : ModelBeginArgs} (h : beginRange a) :
    headerArg a = (lineRateArg a.lineRate).map (headerOf a) := by
  unfold headerArg
  cases lineRateArg a.lineRate with
  | none => rfl
  | some rate =>
    refine if_pos ?_
    simp only [stringArg_iff, within_iff, Nat.zero_le, true_and, byte_le, half_le, and_true]
    exact h

theorem headerArg_out {a : ModelBeginArgs} (h : ¬ beginRange a) : headerArg a = none := by
  unfold headerArg
  cases lineRateArg a.lineRate with
  | none => rfl
  | some rate =>
    refine if_neg ?_
    simp only [stringArg_iff, within_iff, Nat.zero_le, true_and, byte_le, half_le, and_true]
    exact h

theorem modelBegin_bad {a : ModelBeginArgs} {s : State} (h : headerArg a = none) : modelBegin a s = badArg s := by
  simp only [modelBegin, h]

theorem modelBegin_good {a : ModelBeginArgs} {s : State} {x : Header} (h : headerArg a = some x)
    (idle : s.store.write = none) : modelBegin a s = s.staged (some ⟨x, [], [], Vector.replicate 4 []⟩) := by
  simp only [modelBegin, h]
  exact if_neg (by simp [Store.busy_eq_false.mpr idle])

/-! ## MODEL ADD COMPONENT, STAGE and STEP (R77 to R79) -/

/-- An entry is appended to a staging record with room for it, while no store write is in progress. -/
theorem State.addToStaging_room {s : State} {m : Model} {full : Model → Bool} (idle : s.store.write = none)
    (staging : s.store.staging = some m) (room : full m = false) (add : Model → Model) :
    s.addToStaging full add = s.staged (some (add m)) := by
  rw [State.addToStaging, if_neg (by simp [Store.busy_eq_false.mpr idle]), staging]
  exact if_neg (by simp [room])

/-- The entry of MODEL ADD COMPONENT but its class is in range (R68, R77). -/
def componentRange (a : AddComponentArgs) : Prop :=
  (1 ≤ a.designator.length ∧ a.designator.length ≤ 8 ∧ ∀ b ∈ a.designator, 0x20 ≤ b.toNat ∧ b.toNat ≤ 0x7E) ∧
    ∀ w, a.waitClass = some w → w.toNat ≤ 7 ∧ a.range ≠ none

theorem componentRange_iff (a : AddComponentArgs) : componentRange a ↔
    stringArg 8 a.designator = true ∧ (a.waitClass.isSome = true → a.range.isSome = true) ∧
      a.waitClass.all (within 0 7 ·.toNat) = true := by
  rw [componentRange, stringArg_iff]
  cases a.waitClass with
  | none => simp
  | some w => simp [within, Option.isSome_iff_ne_none, and_comm]

/-- The entry that the fields of MODEL ADD COMPONENT give. -/
def componentOf (a : AddComponentArgs) (cls : ComponentClass) : Component :=
  ⟨a.designator, cls, a.range, match a.waitClass with | none => 0 | some w => w.toNat⟩

theorem componentArg_of_range {a : AddComponentArgs} (h : componentRange a) :
    componentArg a = (classArg a.cls).map (componentOf a) := by
  unfold componentArg
  cases classArg a.cls with
  | none => rfl
  | some cls =>
    refine (if_pos ((componentRange_iff a).mp h)).trans ?_
    rw [Option.map_some, componentOf]
    cases a.waitClass <;> rfl

theorem componentArg_out {a : AddComponentArgs} (h : ¬ componentRange a) : componentArg a = none := by
  unfold componentArg
  cases classArg a.cls with
  | none => rfl
  | some cls => exact if_neg fun good => h ((componentRange_iff a).mpr good)

theorem modelAddComponent_bad {a : AddComponentArgs} {s : State} (h : componentArg a = none) :
    modelAddComponent a s = badArg s := by
  simp only [modelAddComponent, h]

theorem modelAddComponent_good {a : AddComponentArgs} {s : State} {x : Component} {m : Model} (h : componentArg a = some x)
    (idle : s.store.write = none) (staging : s.store.staging = some m) (room : m.components.length < 24) :
    modelAddComponent a s = s.staged (some { m with components := m.components ++ [x] }) := by
  simp only [modelAddComponent, h]
  exact State.addToStaging_room idle staging (by simpa using room) _

/-- The fields of MODEL ADD STAGE but the margin are in their ranges (R69, R78). -/
def stageRange (a : AddStageArgs) : Prop :=
  1 ≤ a.duration.toNat ∧ a.dutyA.toNat ≤ 100 ∧ a.dutyB.toNat ≤ 100 ∧ a.units.toNat ≤ 15 ∧ a.program.toNat ≤ 4

/-- The stage that the fields of MODEL ADD STAGE give. -/
def stageOf (a : AddStageArgs) (margin : Margin) : Stage :=
  ⟨a.duration.toNat, margin, a.dutyA.toNat, a.dutyB.toNat, a.halfPeriod.toNat, a.units.toNat, a.program.toNat,
    a.window.toNat⟩

theorem stageArg_of_range {a : AddStageArgs} (h : stageRange a) : stageArg a = (marginArg a.margin).map (stageOf a) := by
  have most : a.duration.toNat ≤ 16777215 := Nat.le_of_lt_succ a.duration.isLt
  unfold stageArg
  cases marginArg a.margin with
  | none => rfl
  | some margin =>
    refine if_pos ?_
    simp only [within_iff, Nat.zero_le, true_and, most, and_true]
    exact h

theorem stageArg_out {a : AddStageArgs} (h : ¬ stageRange a) : stageArg a = none := by
  have most : a.duration.toNat ≤ 16777215 := Nat.le_of_lt_succ a.duration.isLt
  unfold stageArg
  cases marginArg a.margin with
  | none => rfl
  | some margin =>
    refine if_neg ?_
    simp only [within_iff, Nat.zero_le, true_and, most, and_true]
    exact h

theorem modelAddStage_bad {a : AddStageArgs} {s : State} (h : stageArg a = none) : modelAddStage a s = badArg s := by
  simp only [modelAddStage, h]

theorem modelAddStage_good {a : AddStageArgs} {s : State} {x : Stage} {m : Model} (h : stageArg a = some x)
    (idle : s.store.write = none) (staging : s.store.staging = some m) (room : m.stages.length < 8) :
    modelAddStage a s = s.staged (some { m with stages := m.stages ++ [x] }) := by
  simp only [modelAddStage, h]
  exact State.addToStaging_room idle staging (by simpa using room) _

theorem programArg_none {b : Byte} (h : b.toNat = 0 ∨ 4 < b.toNat) : programArg b = none :=
  dif_neg (by omega)

theorem programArg_some {b : Byte} {p : Fin 4} (h : b.toNat = p.val + 1) : programArg b = some p := by
  have hp := p.isLt
  rw [programArg, dif_pos (by omega)]
  exact congrArg some (Fin.ext (by simp [h]))

theorem modelAddStep_bad {a : AddStepArgs} {s : State} (h : programArg a.program = none) : modelAddStep a s = badArg s := by
  simp only [modelAddStep, h]

theorem modelAddStep_good {a : AddStepArgs} {s : State} {p : Fin 4} {m : Model} (h : programArg a.program = some p)
    (idle : s.store.write = none) (staging : s.store.staging = some m) (room : m.programs[p].length < 32) :
    modelAddStep a s =
      s.staged (some (m.addStep p ⟨a.kind, a.start, a.count.toNat, a.pattern, a.value, a.mask, a.bound⟩)) := by
  simp only [modelAddStep, h]
  exact State.addToStaging_room idle staging (by simpa using room) _

theorem toList_vector4 {α : Type} (v : Vector α 4) : v.toList = [v[0], v[1], v[2], v[3]] := by
  obtain ⟨⟨l⟩, h⟩ := v
  match l, h with
  | [_, _, _, _], _ => rfl

theorem stagingBody_some (m : Model) : stagingBody (some m) = [1, byte m.components.length, byte m.stages.length,
    byte m.programs[0].length, byte m.programs[1].length, byte m.programs[2].length, byte m.programs[3].length] := by
  rw [stagingBody, toList_vector4]
  rfl

/-- Settles O31, by the ranges of each request's arguments. -/
theorem stagingRequestsBuildTheRecord : Obligations.StagingRequestsBuildTheRecord := by
  intro s h idle
  refine ⟨fun a inRange range => ⟨fun bad => ?_, fun rate code good => ?_⟩,
    fun a inRange range => ⟨fun bad => ?_, fun cls m m' code good staging room new => ?_⟩,
    fun a inRange range => ⟨fun bad => ?_, fun margin m m' code good staging room new => ?_⟩, stagingBody_some,
    fun a bad => ?_, fun a p m m' program staging room new => ?_⟩
  · have none : headerArg a = none := by
      by_cases others : beginRange a
      · rw [headerArg_of_range others, lineRateArg_none.mpr, Option.map_none]
        by_contra rate
        have rate' := Nat.le_of_not_lt rate
        unfold beginRange at others
        exact bad (range.mpr (by tauto))
      · exact headerArg_out others
    rw [exec_taken h (c := .modelBegin (some a)) rfl, modelBegin_bad none, State.after_badArg]
  · have some : headerArg a = some (headerOf a rate) := by
      rw [headerArg_of_range, lineRateArg_of_mem code, Option.map_some]
      have := range.mp good
      unfold beginRange
      tauto
    rw [exec_taken h (c := .modelBegin (.some a)) rfl, modelBegin_good (s := s.completed) some idle, State.after_staged]
    rfl
  · have none : componentArg a = none := by
      by_cases others : componentRange a
      · rw [componentArg_of_range others, classArg_none.mpr, Option.map_none]
        by_contra cls
        have cls' := Nat.le_of_not_lt cls
        unfold componentRange at others
        exact bad (range.mpr (by tauto))
      · exact componentArg_out others
    rw [exec_taken h (c := .modelAddComponent (some a)) rfl, modelAddComponent_bad none, State.after_badArg]
  · have some : componentArg a = some (componentOf a cls) := by
      rw [componentArg_of_range, classArg_of_mem code, Option.map_some]
      have := range.mp good
      unfold componentRange
      tauto
    rw [exec_taken h (c := .modelAddComponent (.some a)) rfl,
      modelAddComponent_good (s := s.completed) some idle staging room, State.after_staged, new]
    rfl
  · have none : stageArg a = none := by
      by_cases others : stageRange a
      · rw [stageArg_of_range others, marginArg_none.mpr, Option.map_none]
        by_contra margin
        have margin' := Nat.le_of_not_lt margin
        unfold stageRange at others
        exact bad (range.mpr (by tauto))
      · exact stageArg_out others
    rw [exec_taken h (c := .modelAddStage (some a)) rfl, modelAddStage_bad none, State.after_badArg]
  · have some : stageArg a = some (stageOf a margin) := by
      rw [stageArg_of_range, marginArg_of_mem code, Option.map_some]
      have := range.mp good
      unfold stageRange
      tauto
    rw [exec_taken h (c := .modelAddStage (.some a)) rfl, modelAddStage_good (s := s.completed) some idle staging room,
      State.after_staged, new]
    rfl
  · rw [exec_taken h (c := .modelAddStep (some a)) rfl, modelAddStep_bad (programArg_none bad), State.after_badArg]
  · rw [exec_taken h (c := .modelAddStep (some a)) rfl,
      modelAddStep_good (s := s.completed) (programArg_some program) idle staging room, State.after_staged, new]
    rfl

end Sys2Proof.Machine
end

section
/-! Validation of a staging record (R70, R81). -/

namespace Sys2Proof.Machine

/-! ## Kinds and patterns of a step -/

theorem stepKind?_none {code : Byte} : stepKind? code = none ↔ 2 < code.toNat := by
  unfold stepKind?
  split <;> simp_all
  omega

theorem pattern?_isSome {code : Byte} : (pattern? code).isSome = true ↔ code.toNat ≤ 3 := by
  unfold pattern?
  split <;> simp_all
  omega

theorem stepKind?_eq_some {code : Byte} {kind : StepKind} :
    stepKind? code = some kind ↔ match kind with | .hail => code = 0 | .peek => code = 1 | .poke => code = 2 := by
  have code_eq (n : Nat) (small : n < 256) : code.toNat = n ↔ code = BitVec.ofNat 8 n := by
    rw [BitVec.toNat_eq, BitVec.toNat_ofNat, Nat.mod_eq_of_lt small]
  have zero := code_eq 0 (by decide)
  have one := code_eq 1 (by decide)
  have two := code_eq 2 (by decide)
  unfold stepKind?
  split <;> cases kind <;> simp_all

theorem pattern?_fixed {code : Byte} : pattern? code = some .fixed ↔ code = 0 := by
  have zero : code.toNat = 0 ↔ code = 0 := by rw [BitVec.toNat_eq]; rfl
  unfold pattern?
  split <;> simp_all

/-! ## The rules of a step (R70) -/

/-- What R70 asks of a step. -/
def Step.good (x : Step) : Prop :=
  x.kind.toNat ≤ 2 ∧ x.pattern.toNat ≤ 3 ∧ x.bound.toNat ≤ 1 ∧ 1 ≤ x.count ∧ x.count ≤ 4096 ∧
    (x.kind = 0 → x.pattern = 0 ∧ x.start = 0 ∧ x.value = 0 ∧ x.mask = 0) ∧
    (x.kind = 1 ∨ x.kind = 2 → x.start.toNat + x.count ≤ 0x1000000 ∧ (x.pattern ≠ 0 → x.value = 0)) ∧
    (x.kind = 2 → x.mask = 0)

theorem Step.breaksRules_false {x : Step} : x.breaksRules = false ↔ x.good := by
  have pattern := pattern?_isSome (code := x.pattern)
  have fixed := pattern?_fixed (code := x.pattern)
  have count : 1 ≤ x.count ↔ ¬ x.count = 0 := Nat.one_le_iff_ne_zero
  unfold Step.breaksRules Step.unusedSet Step.good
  cases kind : stepKind? x.kind with
  | none =>
    have unknown := stepKind?_none.mp kind
    simp
    omega
  | some y =>
    have known : x.kind.toNat ≤ 2 := Nat.not_lt.mp fun big => by simp [stepKind?_none.mpr big] at kind
    have code := stepKind?_eq_some.mp kind
    cases y <;> dsimp only at code <;> simp [code, pattern, fixed, count] <;> tauto

/-! ## Components, roles and programs (R81) -/

theorem firstIndex_none {α : Type} {p : α → Bool} {l : List α} : firstIndex p l = none ↔ ∀ x ∈ l, p x = false := by
  simp [firstIndex]

theorem Component.badRange_false {x : Component} :
    x.badRange = false ↔ ∀ first last, x.range = some (first, last) → first ≤ last := by
  unfold Component.badRange
  cases h : x.range with
  | none => simp
  | some ends =>
    obtain ⟨first, last⟩ := ends
    simp

/-- Two components whose ranges do not overlap. -/
def Component.apart (x y : Component) : Prop :=
  ∀ a b c d, x.range = some (a, b) → y.range = some (c, d) → b < c ∨ d < a

theorem Component.overlaps_false {x y : Component} : x.overlaps y = false ↔ x.apart y := by
  unfold Component.overlaps Component.apart
  cases hx : x.range with
  | none => simp
  | some ends =>
    cases hy : y.range with
    | none => simp
    | some ends' =>
      obtain ⟨a, b⟩ := ends
      obtain ⟨c, d⟩ := ends'
      simp only [Bool.and_eq_false_iff, decide_eq_false_iff_not, BitVec.not_le, Option.some.injEq, Prod.mk.injEq]
      constructor
      · rintro h _ _ _ _ ⟨rfl, rfl⟩ ⟨rfl, rfl⟩
        exact h.symm
      · exact fun h => (h a b c d ⟨rfl, rfl⟩ ⟨rfl, rfl⟩).symm

theorem firstOverlap_none {i : Nat} {l : List Component} : firstOverlap i l = none ↔ l.Pairwise Component.apart := by
  induction l generalizing i with
  | nil => simp [firstOverlap]
  | cons x xs ih =>
    rw [List.pairwise_cons, firstOverlap]
    cases first : xs.findIdx? x.overlaps with
    | none =>
      rw [List.findIdx?_eq_none_iff] at first
      exact ih.trans ⟨fun h => ⟨fun y hy => Component.overlaps_false.mp (first y hy), h⟩, fun h => h.2⟩
    | some d =>
      refine iff_of_false (by simp) fun h => ?_
      have none : xs.findIdx? x.overlaps = none :=
        List.findIdx?_eq_none_iff.mpr fun y hy => Component.overlaps_false.mpr (h.1 y hy)
      simp [none] at first

theorem badRole_none {h : Header} {count : Nat} :
    badRole h count = none ↔ h.path ≤ count ∧ h.rail ≤ count ∧ h.hang ≤ count := by
  simp [badRole, firstIndex_none]

theorem firstBadStep_none {i : Nat} {programs : List (List Step)} :
    firstBadStep i programs = none ↔ ∀ steps ∈ programs, ∀ x ∈ steps, x.good := by
  induction programs generalizing i with
  | nil => simp [firstBadStep]
  | cons steps rest ih =>
    rw [List.forall_mem_cons, firstBadStep]
    have first : firstIndex Step.breaksRules steps = none ↔ ∀ x ∈ steps, x.good := by
      simp only [firstIndex_none, Step.breaksRules_false]
    cases h : firstIndex Step.breaksRules steps with
    | none => exact ih.trans ⟨fun g => ⟨first.mp h, g⟩, fun g => g.2⟩
    | some n => exact iff_of_false (by simp) fun g => by simp [first.mpr g.1] at h

theorem forall_mem_toList4 {α : Type} {P : α → Prop} (v : Vector α 4) :
    (∀ x ∈ v.toList, P x) ↔ ∀ p : Fin 4, P v[p] := by
  rw [toList_vector4]
  simp [Fin.forall_fin_succ]

theorem trailingBound_false {steps : List Step} :
    trailingBound steps = false ↔ ∀ x, steps.getLast? = some x → x.bound ≠ 0 := by
  unfold trailingBound
  cases steps.getLast? with
  | none => simp
  | some x => simp [Step.isBound]

theorem Model.program_succ (m : Model) (p : Fin 4) : m.program (p.val + 1) = m.programs[p] := by
  match p with
  | 0 | 1 | 2 | 3 => rfl

theorem Model.program_ne_nil {m : Model} {n : Nat} (h : m.program n ≠ []) : ∃ p : Fin 4, n = p.val + 1 := by
  unfold Model.program at h
  split at h
  · exact ⟨0, rfl⟩
  · exact ⟨1, rfl⟩
  · exact ⟨2, rfl⟩
  · exact ⟨3, rfl⟩
  · exact absurd rfl h

theorem emptyProgram_false {m : Model} {x : Stage} :
    emptyProgram m x = false ↔ (x.program ≠ 0 → ∃ p : Fin 4, x.program = p.val + 1 ∧ m.programs[p] ≠ []) := by
  have held : m.program x.program ≠ [] ↔ ∃ p : Fin 4, x.program = p.val + 1 ∧ m.programs[p] ≠ [] := by
    constructor
    · intro h
      obtain ⟨p, hp⟩ := Model.program_ne_nil h
      exact ⟨p, hp, by rwa [hp, Model.program_succ] at h⟩
    · rintro ⟨p, hp, h⟩
      rwa [hp, Model.program_succ]
  rw [← held]
  simp [emptyProgram]

theorem orElse_eq_none {α : Type} {a b : Option α} : (a <|> b) = none ↔ a = none ∧ b = none := by
  cases a <;> simp

/-- Settles O33, by what each check of R81 finds. -/
theorem validationAcceptsExactlyTheGoodRecords : Obligations.ValidationAcceptsExactlyTheGoodRecords := by
  intro m
  have steps : firstBadStep 1 m.programs.toList = none ↔ ∀ p : Fin 4, ∀ x ∈ m.programs[p], x.good :=
    firstBadStep_none.trans (forall_mem_toList4 (P := fun l => ∀ x ∈ l, Step.good x) m.programs)
  have bounds : firstIndex trailingBound m.programs.toList = none ↔
      ∀ p : Fin 4, ∀ x, m.programs[p].getLast? = some x → x.bound ≠ 0 := by
    simp only [firstIndex_none, trailingBound_false]
    exact forall_mem_toList4 (P := fun l => ∀ x, l.getLast? = some x → Step.bound x ≠ 0) m.programs
  unfold Model.fault
  split
  · next empty => exact iff_of_false (by simp) fun h => h.1 empty
  · next components =>
    split
    · next empty => exact iff_of_false (by simp) fun h => h.2.1 empty
    · next stages =>
      simp only [orElse_eq_none, Option.map_eq_none_iff, firstOverlap_none, badRole_none, steps, bounds]
      simp only [firstIndex_none, Component.badRange_false, emptyProgram_false]
      exact ⟨fun h => ⟨components, stages, by tauto⟩, fun h => by tauto⟩

end Sys2Proof.Machine
end

section
/-! MODEL COMMIT, MODEL READ, MODEL LOCK, STORE CLEAR and the ends of the store's own work (R81 to R89). -/

namespace Sys2Proof.Machine

/-! ## Model slots -/

theorem Store.slot_setSlot_same (st : Store) (m : ModelIx) (x : ModelSlot) : (st.setSlot m x).slots[m] = x := by
  simp

theorem Store.slot_setSlot_ne (st : Store) {m n : ModelIx} (x : ModelSlot) (h : n ≠ m) :
    (st.setSlot m x).slots[n] = st.slots[n] := by
  simp [Fin.val_ne_of_ne (Ne.symm h)]

theorem Store.busy_idle {st : Store} (h : st.write = none) : ¬ st.busy = true := by
  simp [Store.busy_eq_false.mpr h]

theorem Rack.casesNaming_ne_zero {r : Rack} {m : ModelIx} :
    r.casesNaming m ≠ 0 ↔ ∃ k c, (r.slot k).record = some c ∧ c.model = m := by
  rw [Rack.casesNaming, ← Nat.pos_iff_ne_zero, List.countP_pos_iff]
  simp [mem_allSlots, Option.any_eq_true]

/-! ## MODEL COMMIT (R81 to R83) -/

section Commit
variable {a : ModelSlotArgs} {s : State} {m : ModelIx} {record : Model}

theorem modelCommit_fault (arg : a.model.toNat = m.val + 1) (staging : s.store.staging = some record) {d l : Nat}
    (fault : record.fault = some (d, l)) : modelCommit a s = (s, .badArg d l) := by
  simp only [modelCommit, modelArg_eq arg, staging, fault]

theorem modelCommit_good (arg : a.model.toNat = m.val + 1) (staging : s.store.staging = some record)
    (fault : record.fault = none) : modelCommit a s =
      if s.store.busy then refuse s .busy
      else if (s.store.slots[m]).state = .locked then refuse s .locked
      else if s.rack.casesNaming m ≠ 0 then refuse s .inUse
      else (s.withStore (s.store.accept m record),
        ⟨.accepted, [byte (modelNumber m), byte ModelSlotState.programming.code]⟩) := by
  simp only [modelCommit, modelArg_eq arg, staging, fault]

theorem modelCommit_busy (arg : a.model.toNat = m.val + 1) (staging : s.store.staging = some record)
    (fault : record.fault = none) (busy : s.store.write ≠ none) : modelCommit a s = refuse s .busy := by
  rw [modelCommit_good arg staging fault, if_pos (Store.busy_eq_true.mpr busy)]

theorem modelCommit_locked (arg : a.model.toNat = m.val + 1) (staging : s.store.staging = some record)
    (fault : record.fault = none) (idle : s.store.write = none) (locked : (s.store.slots[m]).state = .locked) :
    modelCommit a s = refuse s .locked := by
  rw [modelCommit_good arg staging fault, if_neg (Store.busy_idle idle), if_pos locked]

theorem modelCommit_inUse (arg : a.model.toNat = m.val + 1) (staging : s.store.staging = some record)
    (fault : record.fault = none) (idle : s.store.write = none) (free : (s.store.slots[m]).state ≠ .locked)
    (named : ∃ k c, (s.rack.slot k).record = some c ∧ c.model = m) : modelCommit a s = refuse s .inUse := by
  rw [modelCommit_good arg staging fault, if_neg (Store.busy_idle idle), if_neg free,
    if_pos (Rack.casesNaming_ne_zero.mpr named)]

theorem modelCommit_taken (arg : a.model.toNat = m.val + 1) (staging : s.store.staging = some record)
    (fault : record.fault = none) (idle : s.store.write = none) (free : (s.store.slots[m]).state ≠ .locked)
    (unnamed : ∀ k c, (s.rack.slot k).record = some c → c.model ≠ m) : modelCommit a s =
      (s.withStore (s.store.accept m record), ⟨.accepted, [byte (modelNumber m), byte ModelSlotState.programming.code]⟩) := by
  have none : ¬ s.rack.casesNaming m ≠ 0 := fun some => by
    obtain ⟨k, c, hc, same⟩ := Rack.casesNaming_ne_zero.mp some
    exact unnamed k c hc same
  rw [modelCommit_good arg staging fault, if_neg (Store.busy_idle idle), if_neg free, if_neg none]

end Commit

theorem bytes_two (v : Nat) : bytes 2 v = [byte (v / 256), byte v] := by
  simp [bytes]

theorem Store.model_accept (st : Store) (m : ModelIx) (record : Model) : (st.accept m record).model m = record := by
  have slot : (st.accept m record).slots[m] = ⟨.programming, .begun, false, some record⟩ := st.slot_setSlot_same m _
  rw [Store.model, slot]
  rfl

theorem exec_programmingEnd {s : State} {m : ModelIx} (quiet : s.quiet) (h : s.store.write = some (.programming m))
    (good : Bool) : exec (.programmingEnd good) s = .next { s with
      store := (s.store.modSlot m fun slot =>
        if good then { slot with state := .valid, progress := .complete, lockMark := false }
        else { slot with state := .damaged, progress := .begun }).endWrite
      rack := s.rack.noticeFlag (if good then .storeDone else .storeFailed) } := by
  change Host.Outcome.next (s.settled.programmingEnd good) = _
  rw [State.settled_of_quiet quiet]
  simp only [State.programmingEnd, h]

/-- Settles O34. -/
theorem commitProgramsTheSlot : Obligations.CommitProgramsTheSlot := by
  refine ⟨fun s a m record h arg staging => ?_, fun s m good quiet write => ?_⟩
  · have taken := exec_taken h (c := .modelCommit (some a)) rfl
    refine ⟨fun d l fault => ?_, fun fault busy => ?_, fun fault idle locked => ?_, fun fault idle free named => ?_,
      fun fault idle free unnamed => ?_⟩
    · rw [taken, modelCommit_fault (s := s.completed) arg staging fault, Answer.badArg, bytes_two]
      rfl
    · rw [taken, modelCommit_busy (s := s.completed) arg staging fault busy, State.after_refuse]
    · rw [taken, modelCommit_locked (s := s.completed) arg staging fault idle locked, State.after_refuse]
    · rw [taken, modelCommit_inUse (s := s.completed) arg staging fault idle free named, State.after_refuse]
    · refine ⟨s.store.accept m record, ?_, ?_, rfl, rfl, Store.model_accept s.store m record,
        fun n other => s.store.slot_setSlot_ne _ other⟩
      · rw [taken, modelCommit_taken (s := s.completed) arg staging fault idle free unnamed]
        rfl
      · exact congrArg ModelSlot.state (s.store.slot_setSlot_same m _)
  · refine ⟨_, _, exec_programmingEnd quiet write good, rfl, rfl, fun n other => s.store.slot_setSlot_ne _ other, ?_, rfl,
      ?_, ?_⟩
    · have slot := s.store.slot_setSlot_same m
      refine (congrArg ModelSlot.model (slot _)).trans ?_
      cases good <;> rfl
    · rintro rfl
      have slot := s.store.slot_setSlot_same m { s.store.slots[m] with state := .valid, progress := .complete, lockMark := false }
      exact ⟨congrArg ModelSlot.state slot, congrArg ModelSlot.progress slot, congrArg ModelSlot.lockMark slot, rfl⟩
    · rintro rfl
      have slot := s.store.slot_setSlot_same m { s.store.slots[m] with state := .damaged, progress := .begun }
      exact ⟨congrArg ModelSlot.state slot, congrArg ModelSlot.progress slot, rfl⟩

/-! ## MODEL READ (R88) -/

theorem Store.noModel_held {st : Store} {m : ModelIx} (h : (st.slots[m]).state = .valid ∨ (st.slots[m]).state = .locked) :
    ¬ st.noModel m = true := by
  rcases h with h | h
  all_goals
    simp only [Store.noModel, h]
    decide

theorem modelRead_held {a : ModelReadArgs} {s : State} {m : ModelIx} (arg : a.model.toNat = m.val + 1)
    (held : (s.store.slots[m]).state = .valid ∨ (s.store.slots[m]).state = .locked) (idle : s.store.write = none)
    (range : ModelPart.inRange true (s.store.model m) a.part = true) :
    modelRead a s = done s (partBody (s.store.slots[m]).state (s.store.model m) (s.rack.casesNaming m) a.part) := by
  have holds : ((s.store.slots[m]).state == .valid || (s.store.slots[m]).state == .locked) = true := by
    simpa using held
  simp only [modelRead, modelArg_eq arg]
  rw [holds, if_neg (by simp [range]), if_neg (Store.noModel_held held), if_neg (Store.busy_idle idle)]

theorem foldl_max_eq {l : List Nat} {n need : Nat} (low : n ≤ need) (most : ∀ x ∈ l, x ≤ need) (hit : n = need ∨ need ∈ l) :
    l.foldl max n = need := by
  induction l generalizing n with
  | nil => simpa using hit
  | cons x xs ih =>
    have hx := most x List.mem_cons_self
    refine ih (max_le low hx) (fun y hy => most y (List.mem_cons_of_mem x hy)) ?_
    rcases hit with rfl | hit
    · exact .inl (max_eq_left hx)
    · rcases List.mem_cons.mp hit with rfl | later
      · exact .inl (max_eq_right low)
      · exact .inr later

/-- The greatest need of a model (R73). -/
theorem Model.largestNeed_eq {m : Model} {need : Nat} (most : ∀ x ∈ m.stages, x.units ≤ need)
    (hit : need = 0 ∨ ∃ x ∈ m.stages, x.units = need) : m.largestNeed = need := by
  refine foldl_max_eq (Nat.zero_le _) (by simpa using most) ?_
  rcases hit with rfl | hit
  · exact .inl rfl
  · exact .inr (List.mem_map.mpr hit)

theorem within_getElem? {α : Type} {l : List α} {i : Nat} {x : α} (low : 1 ≤ i) (h : l[i - 1]? = some x) :
    within 1 l.length i = true := by
  obtain ⟨small, -⟩ := List.getElem?_eq_some_iff.mp h
  exact within_iff.mpr ⟨low, by omega⟩

theorem padded_exact {width : Nat} {l : List Byte} (h : l.length = width) : padded width l = l := by
  rw [padded, List.take_left' h]

theorem componentBody_eq (x : Component) : componentBody x =
    (x.designator ++ List.replicate 8 0).take 8
      ++ [match x.cls with
            | .memory => (0 : Byte) | .storage => 1 | .processor => 2 | .io => 3 | .power => 4 | .clock => 5 | .path => 6]
      ++ (match x.range with
          | none => [0, 0, 0, 0, 0, 0, 0, 0, 0]
          | some (first, last) => 1 :: (bytes 3 first.toNat ++ bytes 3 last.toNat ++ [1, byte x.waitClass])) := by
  have cls : byte x.cls.code = match x.cls with
      | .memory => (0 : Byte) | .storage => 1 | .processor => 2 | .io => 3 | .power => 4 | .clock => 5 | .path => 6 := by
    cases x.cls <;> rfl
  rw [← cls, componentBody]
  cases x.range with
  | none => simp [marked, padded, List.replicate]
  | some ends =>
    obtain ⟨first, last⟩ := ends
    have six : padded 6 (bytes 3 first.toNat ++ bytes 3 last.toNat) = bytes 3 first.toNat ++ bytes 3 last.toNat :=
      padded_exact (by simp)
    simp only [marked, Option.map_some, addrBytes_eq, six]
    simp [padded]

theorem headerBody_eq {code need count : Nat} {slot : ModelSlotState} {m : Model} (hs : slot.code = code)
    (hn : m.largestNeed = need) : headerBody slot m count = [byte code] ++ (m.header.name ++ List.replicate 12 0).take 12
      ++ [match m.header.lineRate with | .r9600 => 0 | .r19200 => 1 | .r57600 => 2 | .r115200 => 3,
          byte m.header.retries, byte m.header.confirmThreshold, byte m.header.confirmSpread]
      ++ bytes 2 m.header.clearCount ++ bytes 2 m.header.bootAllowance
      ++ [byte m.header.strikeLimit, byte m.header.restTime, byte m.header.riseAllowance, byte m.header.sagAllowance,
          byte m.header.cycles, byte m.header.path, byte m.header.rail, byte m.header.hang,
          byte m.components.length, byte m.stages.length,
          byte m.programs[0].length, byte m.programs[1].length, byte m.programs[2].length, byte m.programs[3].length,
          byte need, byte count] := by
  have rate : byte m.header.lineRate.code =
      match m.header.lineRate with | .r9600 => (0 : Byte) | .r19200 => 1 | .r57600 => 2 | .r115200 => 3 := by
    cases m.header.lineRate <;> rfl
  rw [← hs, ← hn, ← rate, headerBody, toList_vector4]
  simp [padded]

theorem stageBody_eq (x : Stage) : stageBody x =
    bytes 3 x.duration ++ [match x.margin with | .nominal => (0 : Byte) | .low => 1 | .high => 2, byte x.dutyA, byte x.dutyB]
      ++ bytes 2 x.halfPeriod ++ [byte x.units, byte x.program] ++ bytes 2 x.window := by
  have margin : byte x.margin.code = match x.margin with | .nominal => (0 : Byte) | .low => 1 | .high => 2 := by
    cases x.margin <;> rfl
  rw [← margin]
  rfl

theorem stepBody_eq (x : Step) : stepBody x =
    [x.kind] ++ bytes 3 x.start.toNat ++ bytes 2 x.count ++ [x.pattern, x.value, x.mask, x.bound] := by
  rw [stepBody, addrBytes_eq]

/-- Settles O35. -/
theorem modelReadGivesThePart : Obligations.ModelReadGivesThePart := by
  intro s a m h arg held idle
  have taken := exec_taken h (c := .modelRead (some a)) rfl
  have read := modelRead_held (a := a) (s := s.completed) arg held idle
  simp only [State.store_completed, State.rack_completed] at read
  refine ⟨fun state need part valid locked most hit => ?_, fun i x part low entry => ?_, fun i x part low entry => ?_,
    fun i p q x part low program entry => ?_⟩
  · have code : (s.store.slots[m]).state.code = state := by
      rcases held with held | held
      · rw [held, valid held]; rfl
      · rw [held, locked held]; rfl
    rw [taken, read (by rw [part]; rfl), State.after_done, part, partBody,
      headerBody_eq code (Model.largestNeed_eq most hit), Rack.casesNaming, List.countP_eq_length_filter] <;> rfl
  · rw [taken, read (by rw [part]; exact within_getElem? low entry), State.after_done, part, partBody]
    rw [entry, Option.map_some, Option.getD_some, componentBody_eq] <;> rfl
  · rw [taken, read (by rw [part]; exact within_getElem? low entry), State.after_done, part, partBody]
    rw [entry, Option.map_some, Option.getD_some, stageBody_eq] <;> rfl
  · have held' : (s.store.model m).program p.toNat = (s.store.model m).programs[q] := by
      rw [program, Model.program_succ]
    have range : ModelPart.inRange true (s.store.model m) a.part = true := by
      rw [part, ModelPart.inRange, Bool.and_eq_true]
      refine ⟨within_iff.mpr ⟨by omega, by omega⟩, ?_⟩
      rw [held']
      exact within_getElem? low entry
    rw [taken, read range, State.after_done, part, partBody]
    rw [held', entry, Option.map_some, Option.getD_some, stepBody_eq]

end Sys2Proof.Machine
end

section
/-! MODEL LOCK, STORE CLEAR and the start-up check (R85 to R89). -/

namespace Sys2Proof.Machine

/-! ## MODEL LOCK (R85) -/

section Lock
variable {a : ModelSlotArgs} {s : State} {m : ModelIx}

theorem modelLock_taken (arg : a.model.toNat = m.val + 1) (idle : s.store.write = none)
    (valid : (s.store.slots[m]).state = .valid) : modelLock a s = done (s.withStore (s.store.lock m)) [] := by
  simp only [modelLock, modelArg_eq arg]
  rw [if_neg (Store.busy_idle idle), if_neg (not_not.mpr valid)]

theorem modelLock_refused (arg : a.model.toNat = m.val + 1) (idle : s.store.write = none)
    (other : (s.store.slots[m]).state ≠ .valid) : modelLock a s = refuse s .state := by
  simp only [modelLock, modelArg_eq arg]
  rw [if_neg (Store.busy_idle idle), if_pos other]

end Lock

theorem exec_lockWriteEnd {s : State} {m : ModelIx} (quiet : s.quiet) (h : s.store.write = some (.lockMark m)) :
    exec .lockWriteEnd s =
      .next (s.withStore (s.store.modSlot m fun slot => { slot with lockMark := true }).endWrite) := by
  change Host.Outcome.next s.settled.lockWriteEnd = _
  rw [State.settled_of_quiet quiet]
  simp only [State.lockWriteEnd, h]

/-! ## STORE CLEAR (R86, R87) -/

theorem storeClear_busy {s : State} (busy : s.store.write ≠ none) (a : NoArgs) : storeClear a s = refuse s .busy :=
  if_pos (Store.busy_eq_true.mpr busy)

theorem storeClear_inUse {s : State} (idle : s.store.write = none) (open' : ∃ k, (s.rack.slot k).record.isSome = true)
    (a : NoArgs) : storeClear a s = refuse s .inUse := by
  obtain ⟨k, hk⟩ := open'
  rw [storeClear, if_neg (Store.busy_idle idle), if_pos (List.any_eq_true.mpr ⟨k, mem_allSlots k, hk⟩)]

theorem storeClear_taken {s : State} (idle : s.store.write = none) (empty : ∀ k, (s.rack.slot k).record = none)
    (a : NoArgs) : storeClear a s =
      (s.withStore { s.store with write := some (.clear 0 false) }, ⟨.accepted, []⟩) := by
  rw [storeClear, if_neg (Store.busy_idle idle), if_neg]
  simp [empty]

theorem exec_clearErase {s : State} {m : ModelIx} (quiet : s.quiet) (h : s.store.write = some (.clear m false)) :
    exec .storeClearSlotErase s = .next (s.withStore
      { s.store.modSlot m fun slot => { slot with state := .blank, progress := .absent, lockMark := false } with
        write := some (.clear m true) }) := by
  change Host.Outcome.next s.settled.clearErase = _
  rw [State.settled_of_quiet quiet]
  simp only [State.clearErase, h]

/-- The store after the check of a cleared slot (R87). -/
def Store.cleared (st : Store) (m : ModelIx) (readsErased : Bool) : Store :=
  st.modSlot m fun slot =>
    if readsErased then { slot with model := none }
    else { slot with state := .damaged, progress := .begun, model := none }

theorem exec_clearCheck {s : State} {m : ModelIx} (quiet : s.quiet) (h : s.store.write = some (.clear m true))
    (erased : Bool) :
    exec (.storeClearSlotCheck erased) s = .next ((s.withStore (s.store.cleared m erased)).clearNext m) := by
  change Host.Outcome.next (s.settled.clearCheck erased) = _
  rw [State.settled_of_quiet quiet]
  simp only [State.clearCheck, h]
  rfl

theorem Store.state_cleared (st : Store) (m : ModelIx) (erased : Bool) :
    ((st.cleared m erased).slots[m]).state = if erased then (st.slots[m]).state else .damaged := by
  refine (congrArg ModelSlot.state (st.slot_setSlot_same m _)).trans ?_
  cases erased <;> rfl

theorem nextModel_some {m n : ModelIx} (h : n.val = m.val + 1) : nextModel m = some n := by
  have := n.isLt
  rw [nextModel, dif_pos (by omega)]
  exact congrArg some (Fin.ext h.symm)

theorem nextModel_last {m : ModelIx} (h : m.val = 7) : nextModel m = none :=
  dif_neg (by omega)

/-- The clear goes on to the next slot. -/
theorem State.clearNext_on {s : State} {m n : ModelIx} (h : n.val = m.val + 1) :
    s.clearNext m = s.withStore { s.store with write := some (.clear n false) } := by
  simp only [State.clearNext, nextModel_some h]

/-- The clear ends after the last slot. -/
theorem State.clearNext_last {s : State} {m : ModelIx} (h : m.val = 7) : s.clearNext m =
    { s with store := s.store.endWrite
             rack := s.rack.noticeFlag (if s.store.allBlank then .storeDone else .storeFailed) } := by
  simp only [State.clearNext, nextModel_last h]

theorem Store.allBlank_iff {st : Store} : st.allBlank = true ↔ ∀ m : ModelIx, (st.slots[m]).state = .blank := by
  simp only [Store.allBlank, List.all_eq_true, beq_iff_eq]
  exact ⟨fun h m => h m (mem_allModels m), fun h m _ => h m⟩

/-- Settles O36. -/
theorem lockAndClearWriteTheStore : Obligations.LockAndClearWriteTheStore := by
  refine ⟨⟨fun s a m h arg idle => ⟨fun valid => ?_, fun other => ?_⟩, fun s m quiet write => ?_⟩,
    fun s h => ⟨fun busy => ?_, fun idle open' => ?_, fun idle empty => ?_⟩, fun s m quiet write => ?_,
    fun s m erased quiet write => ?_⟩
  · have slot := s.store.slot_setSlot_same m { s.store.slots[m] with state := .locked, lockMark := false }
    refine ⟨s.store.lock m, ?_, congrArg ModelSlot.state slot, congrArg ModelSlot.lockMark slot,
      (congrArg ModelSlot.model slot :), rfl, rfl, fun n other => s.store.slot_setSlot_ne _ other⟩
    rw [exec_taken h (c := .modelLock (some a)) rfl, modelLock_taken (s := s.completed) arg idle valid]
    rfl
  · rw [exec_taken h (c := .modelLock (some a)) rfl, modelLock_refused (s := s.completed) arg idle other,
      State.after_refuse]
  · exact ⟨_, exec_lockWriteEnd quiet write, rfl, s.store.slot_setSlot_same m _, rfl,
      fun n other => s.store.slot_setSlot_ne _ other⟩
  · rw [exec_taken h (c := .storeClear (some ⟨⟩)) rfl, storeClear_busy (s := s.completed) busy, State.after_refuse]
  · rw [exec_taken h (c := .storeClear (some ⟨⟩)) rfl, storeClear_inUse (s := s.completed) idle open',
      State.after_refuse]
  · rw [exec_taken h (c := .storeClear (some ⟨⟩)) rfl, storeClear_taken (s := s.completed) idle empty]
    rfl
  · exact ⟨_, exec_clearErase quiet write, s.store.slot_setSlot_same m _, rfl, rfl,
      fun n other => s.store.slot_setSlot_ne _ other⟩
  · have ran := exec_clearCheck quiet write erased
    have others : ∀ n : ModelIx, n ≠ m → (s.store.cleared m erased).slots[n] = s.store.slots[n] :=
      fun n other => s.store.slot_setSlot_ne _ other
    by_cases last : m.val = 7
    · rw [State.clearNext_last last] at ran
      refine ⟨_, _, ran, s.store.state_cleared m erased, others, rfl, rfl, fun n next => ?_,
        fun _ => ⟨rfl, fun blank => ?_, fun ⟨n, held⟩ => ?_⟩⟩
      · have := n.isLt
        omega
      · exact congrArg (fun f : RackFlag => s.rack.notices.flags ||| f.bits) (if_pos (Store.allBlank_iff.mpr blank))
      · exact congrArg (fun f : RackFlag => s.rack.notices.flags ||| f.bits)
          (if_neg fun blank => held (Store.allBlank_iff.mp blank n))
    · have small : m.val + 1 < 8 := by
        have := m.isLt
        omega
      rw [State.clearNext_on (n := ⟨m.val + 1, small⟩) rfl] at ran
      refine ⟨_, s.rack, ran, s.store.state_cleared m erased, others, rfl, rfl, fun n next => ⟨?_, rfl⟩,
        fun seven => absurd seven last⟩
      obtain rfl : n = ⟨m.val + 1, small⟩ := Fin.ext next
      rfl

/-! ## The start-up check (R89) -/

/-- Settles O37. -/
theorem theStartupCheckReadsTheMarks : Obligations.TheStartupCheckReadsTheMarks := by
  intro s bad quiet starting
  obtain ⟨write, staging⟩ := Store.write_checkSlots bad allModels s.store
  refine ⟨allModels.foldl (Store.checkSlot bad) s.store, ?_, staging, write, fun m => ?_⟩
  · change Host.Outcome.next (s.settled.startupCheckEnd bad) = _
    rw [State.settled_of_quiet quiet, State.startupCheckEnd, if_pos starting]
  · rw [Store.slot_checkSlots]
    refine ⟨rfl, rfl, rfl, ?_⟩
    unfold ModelSlot.checkedState
    cases (s.store.slots[m]).progress <;> simp

end Sys2Proof.Machine
end

section
/-! HEATER TRIM, RACK QUIESCE and BUDGET LOOK (R109, R111, R131). -/

namespace Sys2Proof.Machine

/-! ## HEATER TRIM (R109) -/

theorem heaterTrim_taken {a : TrimArgs} {s : State} {k : SlotIx} {c : CaseRecord} (slot : a.slot.toNat = k.val + 1)
    (use : s.rack.inUse k = true) (hc : (s.rack.slot k).record = some c) (duty : a.duty.toNat ≤ 100)
    (state : c.state = .running ∨ c.state = .paused ∨ c.state = .waiting) :
    heaterTrim a s =
      done (s.withRack (s.rack.modStay k (Stay.setHolder (trimmedHolder (caseStage s.store c).halfPeriod c.stay) a.duty.toNat)))
        (trimBody (s.rack.modStay k
            (Stay.setHolder (trimmedHolder (caseStage s.store c).halfPeriod c.stay) a.duty.toNat)) k
          (trimmedHolder (caseStage s.store c).halfPeriod c.stay)) := by
  have trimmable : c.state.trimmable = true := by
    rcases state with h | h | h
    all_goals rw [h]; rfl
  rw [heaterTrim, if_neg (by simp [within_iff.mpr ⟨Nat.zero_le _, duty⟩]), State.onCase_open slot use hc]
  exact if_pos trimmable

theorem Rack.onlySlot_modStay (r : Rack) (k : SlotIx) (f : Stay → Stay) : Rack.onlySlot k r (r.modStay k f) :=
  ⟨rfl, rfl, rfl, rfl, rfl, fun _ other => r.slot_modStay_ne f other⟩

/-- Settles O38. -/
theorem heaterTrimWritesTheIdleHolder : Obligations.HeaterTrimWritesTheIdleHolder := by
  intro s a k c h slot use hc duty state
  have own := s.rack.slot_modStay_same k
    (Stay.setHolder (trimmedHolder (caseStage s.store c).halfPeriod c.stay) a.duty.toNat)
  rw [hc, Option.map_some] at own
  refine ⟨_, _, byte (trimmedHolder (caseStage s.store c).halfPeriod c.stay).code, ?_, own, fun b => ?_, fun switching driving => ?_, s.rack.onlySlot_modStay k _, rfl⟩
  · rw [exec_taken h (c := .heaterTrim (some a)) rfl, heaterTrim_taken (s := s.completed) slot use hc duty state]
    rw [State.store_completed, State.rack_completed, State.after_done_withRack, trimBody, own]
    rfl
  · have written : trimmedHolder (caseStage s.store c).halfPeriod c.stay = .b := by
      unfold trimmedHolder
      rcases b with none | driving
      · exact if_pos none
      · rw [driving]
        split <;> rfl
    rw [written]
    exact ⟨rfl, rfl⟩
  · have written : trimmedHolder (caseStage s.store c).halfPeriod c.stay = .a := by
      rw [trimmedHolder, if_neg switching, driving]
    rw [written]
    exact ⟨rfl, rfl⟩

/-! ## RACK QUIESCE (R111) -/

theorem Rack.checkQuiesced_idle {r : Rack} (quiescing : r.quiesce = .quiescing)
    (idle : ∀ k, r.inUse k = true → r.isIdle k = true) :
    r.checkQuiesced = Rack.noticeFlag { r with quiesce := .quiesced } .quiesced := by
  refine if_pos ⟨quiescing, List.all_eq_true.mpr fun k _ => ?_⟩
  cases use : r.inUse k with
  | false => rfl
  | true => simp [idle k use]

theorem Rack.checkQuiesced_running {r : Rack} (running : r.quiesce ≠ .quiescing ∨ ∃ k, r.inUse k = true ∧ r.isIdle k = false) :
    r.checkQuiesced = r := by
  refine if_neg ?_
  rintro ⟨quiescing, idle⟩
  rcases running with other | ⟨k, use, busy⟩
  · exact other quiescing
  · have := List.all_eq_true.mp idle k (mem_allSlots k)
    simp [use, busy] at this

/-- Settles O40. -/
theorem rackQuiesceStopsAtBoundaries : Obligations.RackQuiesceStopsAtBoundaries := by
  intro s h
  have taken := exec_taken h (c := .rackQuiesce (some ⟨⟩)) rfl
  refine ⟨fun held => ?_, fun active => ⟨fun idle => ?_, fun running => ?_⟩⟩
  · have same : s.rack.beginQuiesce = s.rack := if_neg held
    rw [taken, rackQuiesce, State.rack_completed, same]
    rfl
  · have all : s.rack.beginQuiesce = Rack.noticeFlag { s.rack with quiesce := .quiesced } .quiesced :=
      (if_pos active).trans (Rack.checkQuiesced_idle rfl idle)
    rw [taken, rackQuiesce, State.rack_completed, all]
    rfl
  · have some : s.rack.beginQuiesce = { s.rack with quiesce := .quiescing } :=
      (if_pos active).trans (Rack.checkQuiesced_running (.inr running))
    rw [taken, rackQuiesce, State.rack_completed, some]
    rfl

/-! ## BUDGET LOOK (R131) -/

theorem counted_map_singleton {α : Type} (f : α → Byte) (l : List α) :
    counted (l.map fun x => [f x]) = byte l.length :: l.map f := by
  rw [counted, List.length_map, ← List.flatMap_def, List.map_eq_flatMap]

theorem queueBytes_eq (e : QueueEntry) : queueBytes e = [byte (e.slot.val + 1), byte (e.number.toNat / 256),
    byte e.number.toNat, byte e.need, byte e.priority.code, if e.throughRest then 0 else 1] := by
  rw [queueBytes, halfBytes_eq]
  rfl

theorem counted_queueBytes (q : List QueueEntry) : counted (q.map queueBytes) = byte q.length :: q.flatMap fun e =>
    [byte (e.slot.val + 1), byte (e.number.toNat / 256), byte e.number.toNat, byte e.need, byte e.priority.code,
      if e.throughRest then 0 else 1] := by
  rw [counted, List.length_map, ← List.flatMap_def, ← funext queueBytes_eq]

/-- Settles O42. -/
theorem budgetLookReadsTheBudget : Obligations.BudgetLookReadsTheBudget := by
  refine ⟨fun s h => ⟨fun starting => ?_, fun unset => ?_⟩, fun s h => ?_⟩
  · exact exec_gated (c := .budgetLook (some ⟨⟩)) rfl h (by rw [starting]; rfl)
  · exact exec_gated (c := .budgetLook (some ⟨⟩)) rfl h (by rw [unset]; rfl)
  · rw [exec_taken h (c := .budgetLook (some ⟨⟩)) rfl, budgetLook, State.after_done, budgetBody, counted_queueBytes,
      counted_map_singleton]
    rfl

end Sys2Proof.Machine
end

section
/-! Case numbers, CASE OPEN, LOOK, FIND and CLOSE (R3, R10, R27, R30, R31). -/

namespace Sys2Proof.Machine

/-! ## Case numbers (R3) -/

/-- A number that R3 passes over: 0, or that of an open case. -/
def Rack.skips (r : Rack) (n : Half) : Prop := n = 0 ∨ ∃ k c, (r.slot k).record = some c ∧ c.number = n

theorem Rack.holdsNumber_iff {r : Rack} {n : Half} :
    r.holdsNumber n = true ↔ ∃ k c, (r.slot k).record = some c ∧ c.number = n := by
  simp [Rack.holdsNumber, mem_allSlots, Option.any_eq_true]

/-- The step of R3 passes over numbers until one is free or the fuel is used up. -/
theorem Rack.numberFrom_spec (r : Rack) (fuel : Nat) (n : Half) : ∃ d : Nat, d ≤ fuel ∧
    r.numberFrom fuel n = n + BitVec.ofNat 16 d ∧ (∀ e, e < d → r.skips (n + BitVec.ofNat 16 e)) ∧
    (d < fuel → ¬ r.skips (n + BitVec.ofNat 16 d)) := by
  induction fuel generalizing n with
  | zero => exact ⟨0, le_refl 0, by simp [Rack.numberFrom], by simp, by simp⟩
  | succ fuel ih =>
    have skip : (n = 0 ∨ r.holdsNumber n = true) ↔ r.skips n := by rw [Rack.holdsNumber_iff]; rfl
    by_cases h : r.skips n
    · obtain ⟨d, small, here, before, free⟩ := ih (n + 1)
      have shift : ∀ e : Nat, n + 1 + BitVec.ofNat 16 e = n + BitVec.ofNat 16 (e + 1) := fun e => by
        rw [BitVec.add_assoc, BitVec.add_comm 1, ← BitVec.ofNat_add_ofNat]
        rfl
      refine ⟨d + 1, by omega, ?_, fun e he => ?_, fun h => ?_⟩
      · rw [Rack.numberFrom, if_pos (skip.mpr h), here, shift]
      · match e with
        | 0 => simpa using h
        | e + 1 => exact shift e ▸ before e (by omega)
      · rw [← shift]
        exact free (by omega)
    · refine ⟨0, Nat.zero_le _, ?_, by simp, by simpa using h⟩
      rw [Rack.numberFrom, if_neg fun g => h (skip.mp g)]
      simp

/-- Of eighteen numbers in a row one is free: there are sixteen slots. -/
theorem Rack.not_all_skipped (r : Rack) (n : Half) : ¬ ∀ e : Fin 18, r.skips (n + BitVec.ofNat 16 e.val) := by
  intro h
  have holder : ∀ e : Fin 18, ∃ o : Option SlotIx, (o = none → n + BitVec.ofNat 16 e.val = 0) ∧
      ∀ k, o = some k → ∃ c, (r.slot k).record = some c ∧ c.number = n + BitVec.ofNat 16 e.val := by
    intro e
    rcases h e with zero | ⟨k, c, hc, number⟩
    · exact ⟨none, fun _ => zero, by simp⟩
    · refine ⟨some k, by simp, ?_⟩
      intro j hj
      obtain rfl := Option.some.inj hj
      exact ⟨c, hc, number⟩
  choose o free held using holder
  have inj : Function.Injective o := by
    intro e e' same
    have number : n + BitVec.ofNat 16 e.val = n + BitVec.ofNat 16 e'.val := by
      cases ho : o e with
      | none => rw [free e ho, free e' (same ▸ ho)]
      | some k =>
        obtain ⟨c, hc, hn⟩ := held e k ho
        obtain ⟨c', hc', hn'⟩ := held e' k (same ▸ ho)
        rw [hc] at hc'
        rw [← hn, ← hn', Option.some.inj hc']
    have offset := congrArg BitVec.toNat ((BitVec.add_right_inj n).mp number)
    simp only [BitVec.toNat_ofNat] at offset
    exact Fin.ext (by omega)
  have := Fintype.card_le_of_injective o inj
  simp at this

/-- Settles O17, by counting the numbers that can be passed over. -/
theorem caseNumbersAreFresh : Obligations.CaseNumbersAreFresh := by
  intro r counter
  obtain ⟨d, small, here, before, free⟩ := r.numberFrom_spec 17 counter
  have fresh : ¬ r.skips (r.nextNumber counter) := by
    rw [Rack.nextNumber, here]
    rcases Nat.lt_or_eq_of_le small with less | rfl
    · exact free less
    · intro last
      refine r.not_all_skipped counter fun e => ?_
      rcases Nat.lt_or_eq_of_le (Nat.le_of_lt_succ e.isLt) with less | same
      · exact before e less
      · rwa [same]
  exact ⟨d, small, here, fun zero => fresh (.inl zero), fun k c hc same => fresh (.inr ⟨k, c, hc, same⟩), before⟩

/-! ## Looking a case up (R30, R31) -/

section Find
variable {r : Rack} {p : CaseRecord → Bool}

theorem Rack.findCase_some {k : SlotIx} {c : CaseRecord} (use : r.inUse k = true) (hc : (r.slot k).record = some c)
    (holds : p c = true) (only : ∀ j c', (r.slot j).record = some c' → p c' = true → j = k) : r.findCase p = some k := by
  cases h : r.findCase p with
  | none =>
    have := List.find?_eq_none.mp h k (mem_allSlots k)
    simp [use, hc, holds] at this
  | some j =>
    have found := List.find?_some h
    rw [Bool.and_eq_true, Option.any_eq_true] at found
    obtain ⟨-, c', hc', holds'⟩ := found
    rw [only j c' hc' holds']

theorem Rack.findCase_none (h : ∀ j c, r.inUse j = true → (r.slot j).record = some c → p c = false) :
    r.findCase p = none := by
  refine List.find?_eq_none.mpr fun j _ found => ?_
  rw [Bool.and_eq_true, Option.any_eq_true] at found
  obtain ⟨use, c, hc, holds⟩ := found
  simp [h j c use hc] at holds

end Find

theorem Rack.slotArg_none_of_range {r : Rack} {b : Byte}
    (h : b.toNat = 0 ∨ 16 < b.toNat ∨ 8 < b.toNat ∧ r.wide = false) : r.slotArg b = none := by
  unfold Rack.slotArg
  split
  · next range =>
    refine if_neg fun use => ?_
    simp only [Rack.inUse, Bool.or_eq_true, decide_eq_true_eq] at use
    rcases h with h | h | ⟨h, narrow⟩
    · omega
    · omega
    · rcases use with wide | low
      · simp [narrow] at wide
      · omega
  · rfl

theorem casePrefix_open {r : Rack} {k : SlotIx} {c : CaseRecord} (hc : (r.slot k).record = some c) :
    casePrefix r k = [byte (k.val + 1), 1, byte (c.number.toNat / 256), byte c.number.toNat, byte c.state.code,
      byte ((r.slot k).stamp.toNat / 256), byte (r.slot k).stamp.toNat] := by
  simp only [casePrefix, Slot.numberBytes, Slot.stateCode, hc, halfBytes_eq]
  rfl

theorem casePrefix_empty {r : Rack} {k : SlotIx} (h : (r.slot k).record = none) :
    casePrefix r k = [byte (k.val + 1), 0, 0, 0, 0, byte ((r.slot k).stamp.toNat / 256), byte (r.slot k).stamp.toNat] := by
  simp only [casePrefix, Slot.numberBytes, Slot.stateCode, h, halfBytes_eq]
  rfl

theorem length_lookBody (r : Rack) (k : SlotIx) : (lookBody r k).length = 52 := by
  cases h : (r.slot k).record <;> simp [lookBody, h]

/-- The body of CASE LOOK for an EMPTY slot. -/
theorem lookBody_empty {r : Rack} {k : SlotIx} (h : (r.slot k).record = none) : lookBody r k =
    [byte (k.val + 1), 0, (if (r.slot k).latchClosed then 1 else 0) ||| (if r.isGranted k then 2 else 0), 0]
      ++ bytes 2 (r.slot k).stamp.toNat ++ List.replicate 32 0
      ++ [byte (r.slot k).units, byte (r.slot k).rail.state.code] ++ List.replicate 12 0 := by
  have duty := Rack.heaterDuty_of_phase_none (Rack.phase_empty h)
  simp only [lookBody, h, duty, mark, halfBytes, List.append_assoc]
  rfl

theorem mark_cause (cs : CaseState) :
    mark cs.cause?.isSome 2 = match cs with | .faulted _ => 2 | .done _ _ => 2 | _ => 0 := by
  cases cs <;> rfl

theorem mark_verdict (cs : CaseState) : mark cs.verdict?.isSome 8 = match cs with | .done _ _ => 8 | _ => 0 := by
  cases cs <;> rfl

theorem byte_cause (cs : CaseState) :
    byte (cs.cause?.getD 0) = match cs with | .faulted f => byte f.code | .done e _ => byte e.code | _ => 0 := by
  cases cs <;> rfl

theorem byte_verdict (cs : CaseState) :
    byte ((cs.verdict?.map Verdict.code).getD 0) = match cs with | .done _ v => byte v.code | _ => 0 := by
  cases cs <;> rfl

/-- The body of CASE LOOK for an open case. -/
theorem lookBody_open {r : Rack} {k : SlotIx} {c : CaseRecord} (hc : (r.slot k).record = some c) : lookBody r k =
    [byte (k.val + 1), byte c.state.code,
        (if (r.slot k).latchClosed then 1 else 0) ||| (if r.isGranted k then 2 else 0)
          ||| (if c.stay.draining then 4 else 0) ||| (if c.poolFull then 8 else 0),
        1 ||| (match c.state with | .faulted _ => 2 | .done _ _ => 2 | _ => 0)
          ||| (if c.boardId.isSome then 4 else 0) ||| (match c.state with | .done _ _ => 8 | _ => 0)]
      ++ bytes 2 (r.slot k).stamp.toNat ++ bytes 2 c.number.toNat
      ++ [match c.state with | .faulted f => byte f.code | .done e _ => byte e.code | _ => 0,
          byte (c.model.val + 1), byte c.priority.code]
      ++ (c.tag ++ List.replicate 16 0).take 16 ++ bytes 2 (c.boardId.getD 0).toNat
      ++ [byte c.stay.position.cycle, byte c.stay.position.stage]
      ++ bytes 3 c.stay.elapsed ++ bytes 4 c.stress
      ++ [byte (r.slot k).units, byte (r.slot k).rail.state.code] ++ bytes 2 c.sagCount
      ++ [byte c.tripCount, byte c.strikes] ++ bytes 4 c.passes
      ++ [byte c.suspects.length, byte c.unplaced, byte (r.heaterDuty k),
          match c.state with | .done _ v => byte v.code | _ => 0] := by
  simp only [lookBody, hc, mark_cause, mark_verdict, byte_cause, byte_verdict, halfBytes]
  rfl

/-! ## CASE LOOK and CASE FIND (R30, R31) -/

theorem caseLook_bySlot {s : State} {b : Byte} {k : SlotIx} (slot : b.toNat = k.val + 1) (use : s.rack.inUse k = true) :
    caseLook (.bySlot b) s = done s (lookBody s.rack k) := by
  simp only [caseLook, Rack.slotArg_eq slot use]

theorem caseLook_byNumber {s : State} {n : Half} (hn : n ≠ 0) : caseLook (.byNumber n) s =
    match s.rack.findCase fun c => c.number == n with
    | none => refuse s .noCase
    | some k => done s (lookBody s.rack k) := if_neg hn

/-- Settles O18. -/
theorem caseAnswersReadTheRecord : Obligations.CaseAnswersReadTheRecord := by
  refine ⟨fun r k => ⟨fun c => casePrefix_open, casePrefix_empty⟩, fun s h => ⟨fun b range => ?_, ?_, fun n hn free => ?_⟩,
    fun s k h use => ⟨lookBody s.rack k, length_lookBody s.rack k, fun b slot => ?_, fun c hc hn only => ?_, lookBody_empty,
      fun c hc => (lookBody_open hc).trans rfl⟩⟩
  · rw [exec_taken h (c := .caseLook (some (.bySlot b))) rfl, caseLook, State.rack_completed,
      Rack.slotArg_none_of_range range]
    rfl
  · rw [exec_taken h (c := .caseLook (some (.byNumber 0))) rfl]
    rfl
  · rw [exec_taken h (c := .caseLook (some (.byNumber n))) rfl, caseLook_byNumber hn, State.rack_completed,
      Rack.findCase_none fun j c use hc => by simpa using free j c use hc]
    rfl
  · rw [exec_taken h (c := .caseLook (some (.bySlot b))) rfl, caseLook_bySlot (s := s.completed) slot use]
    rfl
  · rw [exec_taken h (c := .caseLook (some (.byNumber c.number))) rfl, caseLook_byNumber hn, State.rack_completed,
      Rack.findCase_some use hc (by simp) fun j c' hc' same => only j c' hc' (by simpa using same)]
    rfl

theorem tagArg_false {tag : List Byte} :
    tagArg tag = false ↔ tag = [] ∨ 16 < tag.length ∨ ∃ b ∈ tag, b.toNat < 0x20 ∨ 0x7E < b.toNat := by
  rw [tagArg, ← Bool.not_eq_true, stringArg_iff, Nat.one_le_iff_ne_zero, Ne, List.length_eq_zero_iff]
  simp only [not_and_or, not_not, not_forall, Nat.not_le]
  simp

theorem tagArg_true {tag : List Byte} (some : tag ≠ []) (short : tag.length ≤ 16)
    (chars : ∀ b ∈ tag, 0x20 ≤ b.toNat ∧ b.toNat ≤ 0x7E) : tagArg tag = true :=
  stringArg_iff.mpr ⟨List.length_pos_iff.mpr some, short, chars⟩

theorem caseFind_good {a : CaseFindArgs} {s : State} (good : tagArg a.tag = true) : caseFind a s =
    match s.rack.findCase fun c => c.tag == a.tag with
    | none => refuse s .noCase
    | some k => doneCase s k := by
  rw [caseFind, if_neg (by simp [good])] <;> rfl

/-- Settles O25. -/
theorem caseFindFindsTheTag : Obligations.CaseFindFindsTheTag := by
  intro s a h
  have taken := exec_taken h (c := .caseFind (some a)) rfl
  refine ⟨fun bad => ?_, fun some short chars => ?_⟩
  · rw [taken, caseFind, if_pos (by rw [tagArg_false.mpr bad]; rfl), State.after_badArg]
  · rw [caseFind_good (tagArg_true some short chars), State.rack_completed] at taken
    refine ⟨fun free => ?_, fun k c use hc tag only => ?_⟩
    · rw [taken, Rack.findCase_none fun j c use hc => by simpa using free j c use hc]
      rfl
    · rw [taken, Rack.findCase_some use hc (by simpa using tag) fun j c' hc' same => only j c' hc' (by simpa using same)]
      rfl

/-! ## CASE OPEN (R10) -/

theorem caseOpen_args {a : CaseOpenArgs} {s : State} {k : SlotIx} {m : ModelIx} {p : Priority}
    (slot : s.rack.slotArg a.slot = some k) (model : modelArg a.model = some m) (priority : priorityArg a.priority = some p) :
    caseOpen a s =
      if !tagArg a.tag then badArg s
      else if s.store.noModel m && !s.store.clearing then refuse s .noModel
      else if (s.rack.slot k).record.isSome then refuse s .state
      else if !(s.rack.slot k).latchClosed then refuse s .state
      else if (s.store.slots[m]).state == .programming || s.store.clearing then refuse s .busy
      else if s.rack.holdsTag none a.tag then refuse s .duplicate
      else
        doneCase { s with caseCounter := s.rack.nextNumber s.caseCounter + 1
                          rack := s.rack.openCase k (.opened s.store (s.rack.nextNumber s.caseCounter) m a.tag p) } k := by
  simp only [caseOpen, slot, model, priority]

theorem caseOpen_badArg {a : CaseOpenArgs} {s : State} (h : s.rack.slotArg a.slot = none ∨ modelArg a.model = none ∨
    tagArg a.tag = false ∨ priorityArg a.priority = none) : caseOpen a s = badArg s := by
  unfold caseOpen
  split
  · next k m p hk hm hp =>
    rcases h with h | h | h | h
    · simp [hk] at h
    · simp [hm] at h
    · rw [if_pos (by rw [h]; rfl)]
    · simp [hp] at h
  · rfl

theorem Rack.holdsTag_false {r : Rack} {but : Option SlotIx} {tag : List Byte}
    (h : ∀ j c, some j ≠ but → (r.slot j).record = some c → c.tag ≠ tag) : r.holdsTag but tag = false := by
  rw [← Bool.not_eq_true]
  intro held
  simp only [Rack.holdsTag, List.any_eq_true, Bool.and_eq_true, bne_iff_ne, Option.any_eq_true, beq_iff_eq] at held
  obtain ⟨j, -, other, c, hc, same⟩ := held
  exact h j c other hc same

theorem Rack.slot_openCase (r : Rack) (k : SlotIx) (c : CaseRecord) (ready : c.state = .ready) : (r.openCase k c).slot k =
    { r.slot k with
      stamp := (r.slot k).stamp + 1
      record := some c
      line := { (r.slot k).line with pointer := 0, sure := false }
      seq := { (r.slot k).seq with step := 1, index := 0, runStart := none, lastExchange := none } } := by
  rw [Rack.openCase, Rack.slot_enter_same, Rack.slot_modSlot_same, ← ready]
  rfl

theorem Rack.onlySlot_openCase (r : Rack) (k : SlotIx) (c : CaseRecord) : Rack.onlySlot k r (r.openCase k c) :=
  ⟨rfl, rfl, rfl, rfl, rfl, fun j other => by
    rw [Rack.openCase, Rack.slot_enter_ne _ _ other, Rack.slot_modSlot_ne _ _ other]⟩

/-- Settles O19. -/
theorem caseOpenOpensAReadyCase : Obligations.CaseOpenOpensAReadyCase := by
  intro s a k m p h slot use model priority long short chars held notClearing empty latch free
  have tag : tagArg a.tag = true := stringArg_iff.mpr ⟨long, short, chars⟩
  have own := s.rack.slot_openCase k (.opened s.store (s.rack.nextNumber s.caseCounter) m a.tag p) rfl
  have notProgramming : ((s.store.slots[m]).state == .programming) = false := by
    rcases held with held | held
    all_goals rw [held]; rfl
  have noModel : s.store.noModel m = false := Bool.eq_false_iff.mpr (Store.noModel_held held)
  refine ⟨_, _, _, ?_, rfl, (congrArg Slot.record own :), (congrArg Slot.stamp own :), rfl, rfl, rfl, rfl, rfl, rfl, rfl, rfl, rfl, rfl,
    rfl, rfl, rfl, rfl, rfl, rfl, rfl, rfl, (congrArg Slot.units own :), (congrArg Slot.rail own :), (congrArg Slot.watch own :),
    s.rack.onlySlot_openCase k _, rfl⟩
  rw [exec_taken h (c := .caseOpen (some a)) rfl,
    caseOpen_args (s := s.completed) (Rack.slotArg_eq slot use) (modelArg_eq model) priority, if_neg (by simp [tag]),
    if_neg (by simp [noModel]), if_neg (by simp [empty]), if_neg (by simp [latch]),
    if_neg (by rw [State.store_completed, notProgramming, notClearing]; simp),
    if_neg (by rw [State.rack_completed, Rack.holdsTag_false fun j c _ hc => free j c hc]; simp)]
  rfl

section OpenChecks
variable {a : CaseOpenArgs} {s : State} {k : SlotIx} {m : ModelIx} (slot : s.rack.slotArg a.slot = some k)
  (model : modelArg a.model = some m) (tag : tagArg a.tag = true) (priority : (priorityArg a.priority).isSome = true)
include slot model tag priority

theorem caseOpen_noModel (missing : s.store.noModel m = true ∧ s.store.clearing = false) :
    caseOpen a s = refuse s .noModel := by
  obtain ⟨p, priority⟩ := Option.isSome_iff_exists.mp priority
  rw [caseOpen_args slot model priority, if_neg (by simp [tag]), if_pos (by simp [missing])]

variable (held : s.store.noModel m = false ∨ s.store.clearing = true)
include held

theorem caseOpen_state (shut : (s.rack.slot k).record.isSome = true ∨ (s.rack.slot k).latchClosed = false) :
    caseOpen a s = refuse s .state := by
  obtain ⟨p, priority⟩ := Option.isSome_iff_exists.mp priority
  rw [caseOpen_args slot model priority, if_neg (by simp [tag]), if_neg (by rcases held with h | h <;> simp [h])]
  by_cases full : (s.rack.slot k).record.isSome = true
  · rw [if_pos full]
  · rw [if_neg full, if_pos (by simp [shut.resolve_left full])]

variable (empty : (s.rack.slot k).record = none) (latch : (s.rack.slot k).latchClosed = true)
include empty latch

theorem caseOpen_busy (busy : (s.store.slots[m]).state = .programming ∨ s.store.clearing = true) :
    caseOpen a s = refuse s .busy := by
  obtain ⟨p, priority⟩ := Option.isSome_iff_exists.mp priority
  rw [caseOpen_args slot model priority, if_neg (by simp [tag]), if_neg (by rcases held with h | h <;> simp [h]),
    if_neg (by simp [empty]), if_neg (by simp [latch]), if_pos (by simpa using busy)]

theorem caseOpen_duplicate (ready : (s.store.slots[m]).state ≠ .programming) (still : s.store.clearing = false)
    (taken : s.rack.holdsTag none a.tag = true) : caseOpen a s = refuse s .duplicate := by
  obtain ⟨p, priority⟩ := Option.isSome_iff_exists.mp priority
  rw [caseOpen_args slot model priority, if_neg (by simp [tag]), if_neg (by rcases held with h | h <;> simp [h]),
    if_neg (by simp [empty]), if_neg (by simp [latch]), if_neg (by simpa using ⟨ready, still⟩), if_pos taken]

end OpenChecks

/-- Settles O20, by the checks of CASE OPEN in their order. -/
theorem caseOpenGivesTheFirstReason : Obligations.CaseOpenGivesTheFirstReason := by
  intro s a h
  have taken := exec_taken h (c := .caseOpen (some a)) rfl
  refine ⟨fun bad => ?_, fun k m slot model tag priority => ⟨fun missing => ?_, fun held =>
    ⟨fun shut => ?_, fun empty latch => ⟨fun busy => ?_, fun ready still dup => ?_⟩⟩⟩⟩
  · rw [taken, caseOpen_badArg (s := s.completed) bad, State.after_badArg]
  · rw [taken, caseOpen_noModel (s := s.completed) slot model tag priority missing, State.after_refuse]
  · rw [taken, caseOpen_state (s := s.completed) slot model tag priority held shut, State.after_refuse]
  · rw [taken, caseOpen_busy (s := s.completed) slot model tag priority held empty latch busy, State.after_refuse]
  · rw [taken, caseOpen_duplicate (s := s.completed) slot model tag priority held empty latch ready still dup,
      State.after_refuse]

/-! ## CASE CLOSE (R27) -/

theorem caseClose_taken {a : SlotArgs} {s : State} {k : SlotIx} {c : CaseRecord} (slot : a.slot.toNat = k.val + 1)
    (use : s.rack.inUse k = true) (hc : (s.rack.slot k).record = some c) (out : c.state.inRun = false) :
    caseClose a s = doneCase (s.withRack (s.rack.closeCase k)) k := by
  rw [caseClose, State.onCase_open slot use hc]
  exact if_neg (by simp [out])

theorem Rack.slot_closeCase (r : Rack) (k : SlotIx) : (r.closeCase k).slot k =
    { r.slot k with
      stamp := (r.slot k).stamp + 1
      record := none
      rail := { (r.slot k).rail with state := if (r.slot k).rail.state = .tripped then .off else (r.slot k).rail.state }
      line := { (r.slot k).line with pointer := 0, sure := false }
      watch := (r.slot k).watch.disarm } := by
  simp [Rack.closeCase]

theorem Rack.onlySlot_closeCase (r : Rack) (k : SlotIx) : Rack.onlySlot k r (r.closeCase k) :=
  ⟨rfl, rfl, rfl, rfl, rfl, fun j other => by simp [Rack.closeCase, other]⟩

/-- Settles O24. -/
theorem caseCloseEmptiesTheRecord : Obligations.CaseCloseEmptiesTheRecord := by
  intro s a k c h slot use hc out
  have own := s.rack.slot_closeCase k
  refine ⟨_, ?_, (congrArg Slot.record own :), (congrArg Slot.suspectCount own :), (congrArg Slot.stamp own :), (congrArg Slot.rail own :),
    (congrArg (fun sl => sl.line.pointer) own :), (congrArg (fun sl => sl.line.sure) own :),
    (congrArg (fun sl => sl.line.state) own :), (congrArg Slot.units own :), s.rack.onlySlot_closeCase k, rfl⟩
  rw [exec_taken h (c := .caseClose (some a)) rfl, caseClose_taken (s := s.completed) slot use hc out]
  rfl

end Sys2Proof.Machine
end

section
/-! Units asked for, queued and granted, and the beginning of a run (R11, R14, R121 to R124). -/

namespace Sys2Proof.Machine

/-! ## The budget (R120) -/

/-- The free units depend on the budget and on the units of the slots alone. -/
theorem Rack.freeUnits_congr {r r' : Rack} (budget : r'.budget = r.budget) (units : ∀ j, (r'.slot j).units = (r.slot j).units) :
    r'.freeUnits = r.freeUnits := by
  rw [Rack.freeUnits, Rack.freeUnits, Rack.budgetUnits, Rack.budgetUnits, budget, Rack.heldTotal, Rack.heldTotal,
    sum_congr units]

theorem Rack.units_modCase (r : Rack) (k : SlotIx) (f : CaseRecord → CaseRecord) (j : SlotIx) :
    ((r.modCase k f).slot j).units = (r.slot j).units := by
  by_cases same : j = k
  · rw [same, Rack.slot_modCase_same]
  · rw [Rack.slot_modCase_ne _ _ same]

theorem Rack.units_setUnits (r : Rack) (k : SlotIx) (n : Nat) (j : SlotIx) :
    ((r.setUnits k n).slot j).units = if j = k then n else (r.slot j).units := by
  by_cases same : j = k
  · rw [same, Rack.slot_setUnits_same, if_pos rfl]
  · rw [Rack.slot_setUnits_ne _ _ same, if_neg same]

/-- A grant that a slot takes changes no units. -/
theorem Rack.units_takeGrant (st : Store) (r : Rack) (k j : SlotIx) :
    ((r.takeGrant st k).slot j).units = (r.slot j).units := by
  by_cases same : j = k
  · subst same
    unfold Rack.takeGrant
    split
    · next waiting =>
      obtain ⟨c, hc, -⟩ := Slot.record_of_caseState waiting
      split
      · obtain ⟨l, run, own⟩ := Rack.slot_issue st ((r.enter j .running).modSeq j Sequencer.startProgram) j
        rw [own]
        simp
      · rw [Rack.slot_enterPowering st r j c hc]
    · rfl
  · rw [Rack.slot_takeGrant_ne st r same]

/-! ## The Budget Queue (R121) -/

/-- The two ways to join the queue, as one. -/
theorem joinQueue_eq {e : QueueEntry} {q joined : List QueueEntry} (normal : e.priority = .normal → joined = q ++ [e])
    (rush : e.priority = .rush → joined = q.filter (fun e => e.priority = .rush) ++
      e :: q.filter (fun e => e.priority = .normal)) : joined = joinQueue e q := by
  unfold joinQueue
  cases h : e.priority with
  | normal => exact normal h
  | rush =>
    rw [rush h]
    dsimp only
    rw [List.append_assoc]
    rfl

theorem self_mem_joinQueue (e : QueueEntry) (q : List QueueEntry) : e ∈ joinQueue e q := by
  unfold joinQueue
  split <;> simp

theorem Rack.queued_joinQueue (r : Rack) (e : QueueEntry) (q : List QueueEntry) :
    Rack.queued { r with queue := joinQueue e q } e.slot = true :=
  List.any_eq_true.mpr ⟨e, self_mem_joinQueue e q, by simp⟩

/-! ## A request for units (R122) -/

theorem Rack.askUnits_granted {r : Rack} {k : SlotIx} {need : Nat}
    (h : need = 0 ∨ r.queue = [] ∧ need ≤ r.freeUnits ∧ r.quiesce = .active) : r.askUnits k need = r.setUnits k need := by
  unfold Rack.askUnits
  by_cases zero : need = 0
  · rw [if_pos zero, zero]
  · rw [if_neg zero, if_pos (h.resolve_left zero)]

theorem Rack.askUnits_joins {r : Rack} {k : SlotIx} {c : CaseRecord} {need : Nat} (hc : (r.slot k).record = some c)
    (some : need ≠ 0) (h : ¬ (r.queue = [] ∧ need ≤ r.freeUnits ∧ r.quiesce = .active)) :
    r.askUnits k need = { r with queue := joinQueue ⟨k, c.number, need, c.priority, false⟩ r.queue } := by
  rw [Rack.askUnits, if_neg some, if_neg h, hc]

/-! ## Grant passes (R123) -/

/-- A pass over a held rack, and one whose head does not fit, does nothing. -/
theorem Rack.grantPass_stays (st : Store) {r : Rack}
    (h : r.quiesce ≠ .active ∨ ∀ e rest, r.queue = e :: rest → r.freeUnits < e.need) : r.grantPass st = r := by
  cases queue : r.queue with
  | nil => exact Rack.grantPass_nil st r queue
  | cons e rest =>
    rw [Rack.grantPass, queue, List.length_cons, Rack.grantPassUpTo, queue]
    refine if_neg fun ⟨active, fits⟩ => ?_
    rcases h with held | blocked
    · exact held active
    · have := blocked e rest queue
      omega

/-- A pass whose head fits and whose next entry does not grants its head alone. -/
theorem Rack.grantPass_head (st : Store) {r : Rack} {e : QueueEntry} {rest : List QueueEntry} (queue : r.queue = e :: rest)
    (active : r.quiesce = .active) (fits : e.need ≤ r.freeUnits)
    (stop : ∀ h rest', rest = h :: rest' → (r.setUnits e.slot e.need).freeUnits < h.need) :
    r.grantPass st = (Rack.setUnits { r with queue := rest } e.slot e.need).takeGrant st e.slot := by
  obtain ⟨-, budget, queue', -⟩ :=
    Rack.rest_takeGrant st (Rack.setUnits { r with queue := rest } e.slot e.need) e.slot
  have step : r.grantPass st =
      ((Rack.setUnits { r with queue := rest } e.slot e.need).takeGrant st e.slot).grantPass st := by
    rw [Rack.grantPass, queue, List.length_cons, Rack.grantPassUpTo, queue, Rack.grantPass, queue']
    exact if_pos ⟨active, fits⟩
  rw [step]
  refine Rack.grantPass_stays st (.inr fun h rest' next => ?_)
  have free : ((Rack.setUnits { r with queue := rest } e.slot e.need).takeGrant st e.slot).freeUnits =
      (r.setUnits e.slot e.need).freeUnits := by
    refine Rack.freeUnits_congr budget fun j => ?_
    rw [Rack.units_takeGrant, Rack.units_setUnits, Rack.units_setUnits]
    rfl
  rw [free]
  exact stop h rest' (by rw [← next, queue']; rfl)

/-! ## The beginning of a run (R11, R14) -/

theorem Rack.onlySlot_trans {k : SlotIx} {a b c : Rack} (h : Rack.onlySlot k a b) (g : Rack.onlySlot k b c) :
    Rack.onlySlot k a c := by
  obtain ⟨h1, h2, h3, h4, h5, h6⟩ := h
  obtain ⟨g1, g2, g3, g4, g5, g6⟩ := g
  exact ⟨g1.trans h1, g2.trans h2, g3.trans h3, g4.trans h4, g5.trans h5, fun j other => (g6 j other).trans (h6 j other)⟩

theorem Rack.onlySlot_modCase (r : Rack) (k : SlotIx) (f : CaseRecord → CaseRecord) : Rack.onlySlot k r (r.modCase k f) :=
  ⟨rfl, rfl, rfl, rfl, rfl, fun _ other => r.slot_modCase_ne f other⟩

theorem Rack.onlySlot_setUnits (r : Rack) (k : SlotIx) (n : Nat) : Rack.onlySlot k r (r.setUnits k n) :=
  ⟨rfl, rfl, rfl, rfl, rfl, fun _ other => r.slot_setUnits_ne n other⟩

theorem Rack.onlySlot_enterPowering (st : Store) (r : Rack) (k : SlotIx) : Rack.onlySlot k r (r.enterPowering st k) := by
  obtain ⟨wide, budget, queue, quiesce, bench, -⟩ := Rack.rest_enterPowering st r k
  exact ⟨wide, budget, queue, quiesce, bench, fun _ other => Rack.slot_enterPowering_ne st r other⟩

/-- The units of a run are granted at once, or on the pass that follows when its entry joined at the head. -/
def Rack.grantsNow (r : Rack) (c : CaseRecord) (k : SlotIx) (need : Nat) : Prop :=
  need = 0 ∨ r.queue = [] ∧ need ≤ r.freeUnits ∨
    c.priority = .rush ∧ r.queue ≠ [] ∧ (∀ e ∈ r.queue, e.priority = .normal) ∧ need ≤ r.freeUnits ∧
      ∀ e rest, r.queue = e :: rest → (r.setUnits k need).freeUnits < e.need

/-- A request that is granted leaves the queue as it was. -/
theorem Rack.requestUnits_granted (st : Store) {r : Rack} {k : SlotIx} {c : CaseRecord} {need : Nat}
    (hc : (r.slot k).record = some c) (other : c.state ≠ .waiting) (active : r.quiesce = .active)
    (unqueued : r.queued k = false) (grants : r.grantsNow c k need) : r.requestUnits st k need = r.setUnits k need := by
  have now (h : need = 0 ∨ r.queue = [] ∧ need ≤ r.freeUnits ∧ r.quiesce = .active) :
      r.requestUnits st k need = r.setUnits k need := by
    rw [Rack.requestUnits, Rack.askUnits_granted h]
    exact if_neg (by simpa [Rack.queued] using unqueued)
  rcases grants with zero | ⟨empty, fits⟩ | ⟨rush, waiting, normal, fits, stop⟩
  · exact now (.inl zero)
  · exact now (.inr ⟨empty, fits, active⟩)
  · by_cases zero : need = 0
    · exact now (.inl zero)
    · have asked := Rack.askUnits_joins hc zero fun h => waiting h.1
      have head : joinQueue ⟨k, c.number, need, c.priority, false⟩ r.queue =
          ⟨k, c.number, need, c.priority, false⟩ :: r.queue := by
        have noRush : r.queue.filter (·.priority == .rush) = [] :=
          List.filter_eq_nil_iff.mpr fun e he => by simp [normal e he]
        have allNormal : r.queue.filter (·.priority == .normal) = r.queue :=
          List.filter_eq_self.mpr fun e he => by simp [normal e he]
        simp only [joinQueue, rush, noRush, allNormal]
        rfl
      have queued := r.queued_joinQueue ⟨k, c.number, need, c.priority, false⟩ r.queue
      have still : ((Rack.setUnits { r with queue := r.queue } k need).slot k).caseState ≠ some .waiting := by
        rw [Slot.caseState_of_record (c := c) (by simpa using hc)]
        simpa using other
      have pass := Rack.grantPass_head st (r := { r with queue := ⟨k, c.number, need, c.priority, false⟩ :: r.queue })
        (e := ⟨k, c.number, need, c.priority, false⟩) rfl active fits stop
      rw [Rack.requestUnits, asked]
      rw [if_pos queued, head, pass, Rack.takeGrant_not_waiting st still]

/-- A request whose entry joins a queue that grants nothing now. -/
theorem Rack.requestUnits_waits (st : Store) {r : Rack} {k : SlotIx} {c : CaseRecord} {need : Nat} {joined : List QueueEntry}
    (hc : (r.slot k).record = some c) (some : need ≠ 0) (full : r.queue = [] → r.freeUnits < need)
    (join : joined = joinQueue ⟨k, c.number, need, c.priority, false⟩ r.queue)
    (blocked : ∀ e rest, joined = e :: rest → r.freeUnits < e.need) :
    r.requestUnits st k need = { r with queue := joined } := by
  have asked := Rack.askUnits_joins (r := r) hc some fun ⟨empty, fits, _⟩ => by
    have := full empty
    omega
  rw [Rack.requestUnits, asked, ← join]
  rw [if_pos (join ▸ r.queued_joinQueue ⟨k, c.number, need, c.priority, false⟩ r.queue)]
  exact Rack.grantPass_stays st (.inr blocked)

theorem Rack.freeUnits_noStrikes (r : Rack) (k : SlotIx) :
    (r.modCase k fun c => { c with strikes := 0 }).freeUnits = r.freeUnits :=
  Rack.freeUnits_congr rfl (r.units_modCase k _)

section Begin
variable (st : Store) {r : Rack} {k : SlotIx} {c : CaseRecord} (hc : (r.slot k).record = some c)
include hc

theorem Rack.slot_noStrikes : ((r.modCase k fun c => { c with strikes := 0 }).slot k) =
    { r.slot k with record := some { c with strikes := 0 } } := by
  rw [Rack.slot_modCase_same, hc]
  rfl

theorem Rack.stage_of_record : r.stage st k = caseStage st c := by
  rw [Rack.stage, hc]

/-- A run whose units are granted begins in POWERING. -/
theorem Rack.beginRun_granted (other : c.state ≠ .waiting) (active : r.quiesce = .active) (unqueued : r.queued k = false)
    (grants : r.grantsNow c k (caseStage st c).units) :
    (r.beginRun st k).slot k = { r.slot k with
        record := some { c with state := .powering, strikes := 0 }
        stamp := (r.slot k).stamp + 1
        units := (caseStage st c).units
        rail := { (r.slot k).rail with state := .rising, margin := (caseStage st c).margin, rise := 0, sag := 0 } } ∧
      Rack.onlySlot k r (r.beginRun st k) ∧ (r.beginRun st k).notices = (r.noticeSlot k).notices := by
  have fresh := Rack.slot_noStrikes hc
  have grants' : (r.modCase k fun c => { c with strikes := 0 }).grantsNow { c with strikes := 0 } k (caseStage st c).units := by
    have free : ((r.modCase k fun c => { c with strikes := 0 }).setUnits k (caseStage st c).units).freeUnits =
        (r.setUnits k (caseStage st c).units).freeUnits :=
      Rack.freeUnits_congr rfl fun j => by rw [Rack.units_setUnits, Rack.units_setUnits, Rack.units_modCase]
    unfold Rack.grantsNow at grants ⊢
    rwa [Rack.freeUnits_noStrikes, free]
  have asked := Rack.requestUnits_granted (r := r.modCase k fun c => { c with strikes := 0 }) (c := { c with strikes := 0 }) st
    (congrArg Slot.record fresh) other active unqueued grants'
  have begun : r.beginRun st k =
      ((r.modCase k fun c => { c with strikes := 0 }).setUnits k (caseStage st c).units).enterPowering st k := by
    unfold Rack.beginRun
    rw [Rack.stage_of_record st hc, asked]
    exact if_neg (by simpa [Rack.queued] using unqueued)
  have held : (((r.modCase k fun c => { c with strikes := 0 }).setUnits k (caseStage st c).units).slot k) =
      { r.slot k with record := some { c with strikes := 0 }, units := (caseStage st c).units } := by
    rw [Rack.slot_setUnits_same, fresh]
  rw [begun]
  refine ⟨?_, ?_, ?_⟩
  · rw [Rack.slot_enterPowering st _ k { c with strikes := 0 } (congrArg Slot.record held), held]
    rfl
  · exact Rack.onlySlot_trans (Rack.onlySlot_trans (Rack.onlySlot_modCase r k _) (Rack.onlySlot_setUnits _ k _))
      (Rack.onlySlot_enterPowering st _ k)
  · obtain ⟨-, -, -, -, -, notices⟩ := Rack.rest_enterPowering st
      ((r.modCase k fun c => { c with strikes := 0 }).setUnits k (caseStage st c).units) k
    exact notices

/-- A run whose entry joins a queue that grants nothing now waits. -/
theorem Rack.beginRun_waits {joined : List QueueEntry} (some : (caseStage st c).units ≠ 0)
    (full : r.queue = [] → r.freeUnits < (caseStage st c).units)
    (join : joined = joinQueue ⟨k, c.number, (caseStage st c).units, c.priority, false⟩ r.queue)
    (blocked : ∀ e rest, joined = e :: rest → r.freeUnits < e.need) :
    r.beginRun st k = Rack.enter { r.modCase k (fun c => { c with strikes := 0 }) with queue := joined } k .waiting := by
  have asked := Rack.requestUnits_waits (r := r.modCase k fun c => { c with strikes := 0 }) (c := { c with strikes := 0 }) st
    (congrArg Slot.record (Rack.slot_noStrikes hc)) some (by rwa [Rack.freeUnits_noStrikes]) join
    (by rwa [Rack.freeUnits_noStrikes])
  unfold Rack.beginRun
  rw [Rack.stage_of_record st hc, asked]
  exact if_pos (join ▸ Rack.queued_joinQueue _ _ _)

end Begin

end Sys2Proof.Machine
end

section
/-! CASE START and CASE AMEND (R11, R28, R128). -/

namespace Sys2Proof.Machine

theorem State.needTooGreat_eq_false {s : State} {c : CaseRecord}
    (fits : (caseModel s.store c).largestNeed ≤ s.rack.budgetUnits) : s.needTooGreat c = false := by
  simpa [State.needTooGreat] using fits

/-! ## A grant to a waiting case (R16, R124) -/

theorem Rack.takeGrant_off {st : Store} {r : Rack} {k : SlotIx} (waiting : (r.slot k).caseState = some .waiting)
    (off : (r.slot k).rail.state.isOn = false) : r.takeGrant st k = r.enterPowering st k := by
  rw [Rack.takeGrant, if_pos waiting, off, if_neg (by decide)]

theorem Rack.takeGrant_on {st : Store} {r : Rack} {k : SlotIx} (waiting : (r.slot k).caseState = some .waiting)
    (on : (r.slot k).rail.state.isOn = true) :
    r.takeGrant st k = ((r.enter k .running).modSeq k Sequencer.startProgram).issue st k := by
  rw [Rack.takeGrant, if_pos waiting, if_pos on]

/-- What a waiting case becomes by a grant. -/
theorem Rack.takeGrant_spec {st : Store} {r : Rack} {k : SlotIx} {c : CaseRecord} (hc : (r.slot k).record = some c)
    (waiting : c.state = .waiting) :
    ((r.takeGrant st k).slot k).stamp = (r.slot k).stamp + 1 ∧ (r.takeGrant st k).notices = (r.noticeSlot k).notices ∧
    ((r.slot k).rail.state.isOn = false →
      ((r.takeGrant st k).slot k).record = some { c with state := .powering } ∧
      ((r.takeGrant st k).slot k).rail = { (r.slot k).rail with
        state := .rising, margin := (caseStage st c).margin, rise := 0, sag := 0 }) ∧
    ((r.slot k).rail.state.isOn = true →
      ((r.takeGrant st k).slot k).record = some { c with state := .running } ∧
      ((r.takeGrant st k).slot k).rail = (r.slot k).rail ∧ ((r.takeGrant st k).slot k).seq.mode = .program ∧
      ((r.takeGrant st k).slot k).seq.step = 1 ∧ ((r.takeGrant st k).slot k).seq.index = 0) := by
  have waits : (r.slot k).caseState = some .waiting := by rw [Slot.caseState_of_record hc, waiting]
  cases on : (r.slot k).rail.state.isOn with
  | false =>
    obtain ⟨-, -, -, -, -, notices⟩ := Rack.rest_enterPowering st r k
    rw [Rack.takeGrant_off waits on, Rack.slot_enterPowering st r k c hc]
    exact ⟨rfl, notices, fun _ => ⟨rfl, rfl⟩, fun h => by cases h⟩
  | true =>
    obtain ⟨l, run, own⟩ := Rack.slot_issue st ((r.enter k .running).modSeq k Sequencer.startProgram) k
    obtain ⟨-, -, -, -, -, notices⟩ := Rack.rest_issue st ((r.enter k .running).modSeq k Sequencer.startProgram) k
    rw [Rack.slot_modSeq_same, Rack.slot_enter_same, hc] at own
    rw [Rack.takeGrant_on waits on, own]
    exact ⟨rfl, notices, fun h => (by cases h), fun _ => ⟨rfl, rfl, rfl, rfl, rfl⟩⟩

/-- A taken request on a slot answers with the head of that slot. -/
theorem exec_doneCase {α : Type} {s : State} (h : s.takesRequests) {c : Instr} {a : α} {owner : α → State → Reply}
    (row : exec c s = .next (s.request .setOnly (some a) owner)) {k : SlotIx} {r : Rack}
    (taken : owner a s.completed = doneCase (s.completed.withRack r) k) :
    exec c s = .next ((s.withRack r).answered .done (casePrefix r k)) := by
  rw [exec_taken h row, taken, State.after_doneCase_withRack]

/-! ## CASE START -/

theorem caseStart_taken {a : SlotArgs} {s : State} {k : SlotIx} {c : CaseRecord} (slot : a.slot.toNat = k.val + 1)
    (use : s.rack.inUse k = true) (hc : (s.rack.slot k).record = some c) (ready : c.state = .ready)
    (closed : (s.rack.slot k).latchClosed = true) (active : s.rack.quiesce = .active)
    (fits : (caseModel s.store c).largestNeed ≤ s.rack.budgetUnits) :
    caseStart a s = doneCase (s.withRack (s.rack.beginRun s.store k)) k := by
  rw [caseStart, State.onCase_open slot use hc]
  rw [State.needTooGreat_eq_false fits, if_neg (by decide), if_neg (not_not_intro ready), closed, if_neg (by decide),
    if_neg (not_not_intro active)]

/-- Settles O21. -/
theorem caseStartPowersOrQueues : Obligations.CaseStartPowersOrQueues := by
  intro s a k c need entry joined h slot use hc ready closed active fits unqueued needed entered normal rush
  subst needed entered
  have join := joinQueue_eq (e := ⟨k, c.number, (caseStage s.store c).units, c.priority, false⟩) normal rush
  refine ⟨s.rack.beginRun s.store k, ?_, fun grants => ?_, fun some full blocked => ?_⟩
  · exact exec_doneCase h rfl (caseStart_taken (s := s.completed) slot use hc ready closed active fits)
  · exact Rack.beginRun_granted s.store hc (by rw [ready]; decide) active unqueued grants
  · have waits := Rack.beginRun_waits s.store hc some full join blocked
    rw [waits]
    refine ⟨?_, rfl, fun j other => ?_, rfl⟩
    · rw [Rack.slot_enter_same]
      simp [hc]
    · rw [Rack.slot_enter_ne _ _ other]
      exact s.rack.slot_modCase_ne _ other

/-! ## CASE AMEND -/

/-- The checks of AMEND up to the stamp. -/
theorem caseAmend_open {a : CaseAmendArgs} {s : State} {k : SlotIx} {c : CaseRecord} (slot : a.slot.toNat = k.val + 1)
    (use : s.rack.inUse k = true) (hc : (s.rack.slot k).record = some c) (good : amendGood a = true) :
    caseAmend a s = if a.stamp ≠ (s.rack.slot k).stamp then stale s k
      else if a.newTag.any (s.rack.holdsTag (some k)) then refuse s .duplicate
      else doneCase (s.withRack (s.rack.amendCase s.store k c a)) k := by
  rw [caseAmend, good, if_neg (by decide), State.onCase_open slot use hc]

/-- A new tag that no other case holds. -/
theorem Rack.newTag_free {r : Rack} {k : SlotIx} {newTag : Option (List Byte)}
    (free : ∀ tag, newTag = some tag → ∀ j c', j ≠ k → (r.slot j).record = some c' → c'.tag ≠ tag) :
    newTag.any (r.holdsTag (some k)) = false := by
  cases newTag with
  | none => rfl
  | some tag =>
    refine Rack.holdsTag_false fun j c' other hc' => free tag rfl j c' (fun same => other (congrArg some same)) hc'

theorem caseAmend_taken {a : CaseAmendArgs} {s : State} {k : SlotIx} {c : CaseRecord} (slot : a.slot.toNat = k.val + 1)
    (use : s.rack.inUse k = true) (hc : (s.rack.slot k).record = some c) (good : amendGood a = true)
    (stamp : a.stamp = (s.rack.slot k).stamp)
    (free : ∀ tag, a.newTag = some tag → ∀ j c', j ≠ k → (s.rack.slot j).record = some c' → c'.tag ≠ tag) :
    caseAmend a s = doneCase (s.withRack (s.rack.amendCase s.store k c a)) k := by
  rw [caseAmend_open slot use hc good, if_neg (not_not_intro stamp), Rack.newTag_free free, if_neg (by decide)]

/-- The fields of the case and its stamp, as AMEND writes them. -/
def Rack.amendFields (r : Rack) (k : SlotIx) (a : CaseAmendArgs) : Rack := (r.modCase k (CaseRecord.amend a)).stamp k

theorem Rack.slot_amendFields {r : Rack} {k : SlotIx} {c : CaseRecord} (hc : (r.slot k).record = some c)
    (a : CaseAmendArgs) : (r.amendFields k a).slot k =
      { r.slot k with record := some (c.amend a), stamp := (r.slot k).stamp + 1 } := by
  simp [Rack.amendFields, hc]

theorem Rack.slot_amendFields_ne (r : Rack) {j k : SlotIx} (a : CaseAmendArgs) (other : j ≠ k) :
    (r.amendFields k a).slot j = r.slot j := by
  simp [Rack.amendFields, other]

theorem Rack.onlySlot_amendFields (r : Rack) (k : SlotIx) (a : CaseAmendArgs) : Rack.onlySlot k r (r.amendFields k a) :=
  ⟨rfl, rfl, rfl, rfl, rfl, fun _ other => r.slot_amendFields_ne a other⟩

/-- The amended rack with its entry at a new place of the queue. -/
def Rack.amendMoved (r : Rack) (k : SlotIx) (a : CaseAmendArgs) (moved : List QueueEntry) : Rack :=
  { r.amendFields k a with queue := moved }

theorem Rack.slot_amendMoved {r : Rack} {k : SlotIx} {c : CaseRecord} (hc : (r.slot k).record = some c)
    (a : CaseAmendArgs) (moved : List QueueEntry) : (r.amendMoved k a moved).slot k =
      { r.slot k with record := some (c.amend a), stamp := (r.slot k).stamp + 1 } := r.slot_amendFields hc a

theorem Rack.slot_amendMoved_ne (r : Rack) {j k : SlotIx} (a : CaseAmendArgs) (moved : List QueueEntry) (other : j ≠ k) :
    (r.amendMoved k a moved).slot j = r.slot j := r.slot_amendFields_ne a other

theorem Rack.units_amendMoved (r : Rack) (k : SlotIx) (a : CaseAmendArgs) (moved : List QueueEntry) (j : SlotIx) :
    ((r.amendMoved k a moved).slot j).units = (r.slot j).units := by
  by_cases same : j = k
  · subst same
    change ((r.amendFields j a).slot j).units = _
    simp [Rack.amendFields]
  · rw [Rack.slot_amendMoved_ne r a moved same]

theorem Rack.freeUnits_amendMoved (r : Rack) (k : SlotIx) (a : CaseAmendArgs) (moved : List QueueEntry) :
    (r.amendMoved k a moved).freeUnits = r.freeUnits :=
  Rack.freeUnits_congr rfl (r.units_amendMoved k a moved)

/-- An AMEND that moves no entry changes the fields alone. -/
theorem Rack.amendCase_still {st : Store} {r : Rack} {k : SlotIx} {c : CaseRecord} {a : CaseAmendArgs}
    (still : a.newPriority = none ∨ amendPriority a = some c.priority ∨ r.queued k = false) :
    r.amendCase st k c a = r.amendFields k a := by
  unfold Rack.amendCase
  split
  · rfl
  · next p hp =>
    refine if_neg fun ⟨differs, queued⟩ => ?_
    rcases still with none | same | unqueued
    · rw [amendPriority, none] at hp
      cases hp
    · exact differs (Option.some.inj (hp.symm.trans same))
    · rw [unqueued] at queued
      cases queued

/-- An AMEND that moves an entry. -/
theorem Rack.amendCase_moves {st : Store} {r : Rack} {k : SlotIx} {c : CaseRecord} {a : CaseAmendArgs} {p : Priority}
    {e : QueueEntry} (found : r.queue.find? (fun e => e.slot == k) = some e) (hp : amendPriority a = some p)
    (differs : p ≠ c.priority) :
    r.amendCase st k c a =
      (r.amendMoved k a (joinQueue { e with priority := p } (r.queue.filter fun e => e.slot ≠ k))).grantPass st := by
  have queued : r.queued k = true := List.find?_isSome.mp (by rw [found]; rfl) |> fun ⟨x, hx, same⟩ =>
    List.any_eq_true.mpr ⟨x, hx, same⟩
  have moved : (r.amendFields k a).moveEntry k p =
      r.amendMoved k a (joinQueue { e with priority := p } (r.queue.filter fun e => e.slot ≠ k)) := by
    have found' : (r.amendFields k a).queue.find? (fun e => e.slot == k) = some e := found
    have others : (r.amendFields k a).queue.filter (fun e => e.slot != k) = r.queue.filter fun e => e.slot ≠ k :=
      List.filter_congr fun x _ => by by_cases same : x.slot = k <;> simp [same]
    rw [Rack.moveEntry, found']
    dsimp only
    rw [others]
    rfl
  rw [Rack.amendCase, hp]
  dsimp only
  rw [if_pos ⟨differs, queued⟩]
  exact congrArg (Rack.grantPass st) moved

/-- The pass after a move that grants the moved entry alone. -/
theorem Rack.grantPass_amendMoved {st : Store} {r : Rack} {a : CaseAmendArgs} {e : QueueEntry} {moved rest : List QueueEntry}
    (head : moved = e :: rest) (active : r.quiesce = .active) (fits : e.need ≤ r.freeUnits)
    (stop : ∀ h rest', rest = h :: rest' → (r.setUnits e.slot e.need).freeUnits < h.need) :
    (r.amendMoved e.slot a moved).grantPass st =
      ((r.amendMoved e.slot a rest).setUnits e.slot e.need).takeGrant st e.slot := by
  have fits' : e.need ≤ (r.amendMoved e.slot a moved).freeUnits := by rwa [Rack.freeUnits_amendMoved]
  refine Rack.grantPass_head st head active fits' fun h rest' next => ?_
  have free : ((r.amendMoved e.slot a moved).setUnits e.slot e.need).freeUnits = (r.setUnits e.slot e.need).freeUnits :=
    Rack.freeUnits_congr rfl fun j => by rw [Rack.units_setUnits, Rack.units_setUnits, Rack.units_amendMoved]
  rw [free]
  exact stop h rest' next

/-- Settles O26. -/
theorem caseAmendChangesTheNamedFields : Obligations.CaseAmendChangesTheNamedFields := by
  intro s a k c h slot use hc good
  refine ⟨fun stale => ?_, fun stamp free still => ?_, fun stamp free e others moved p c' found others_eq hp differs normal rush c'_eq => ?_⟩
  · rw [exec_taken h (c := .caseAmend (.some a)) rfl,
      (caseAmend_open (s := s.completed) slot use hc good).trans (if_pos stale)]
    exact congrArg Host.Outcome.next (State.after_stale s k)
  · refine ⟨s.rack.amendFields k a, exec_doneCase h rfl ?_, s.rack.slot_amendFields hc a,
      s.rack.onlySlot_amendFields k a, rfl⟩
    exact Rack.amendCase_still (st := s.store) still ▸ caseAmend_taken (s := s.completed) slot use hc good stamp free
  · subst others_eq c'_eq
    have moves := Rack.amendCase_moves (st := s.store) found hp differs
    have join : moved = joinQueue { e with priority := p } (s.rack.queue.filter fun e => e.slot ≠ k) := by
      refine joinQueue_eq (fun h => ?_) (fun h => ?_)
      · change p = .normal at h
        rw [normal h, h]
      · change p = .rush at h
        rw [rush h, h]
    rw [← join] at moves
    have own := s.rack.slot_amendMoved hc a moved
    rw [CaseRecord.amend, hp] at own
    refine ⟨_, exec_doneCase h rfl (moves ▸ caseAmend_taken (s := s.completed) slot use hc good stamp free), fun stays => ?_,
      fun rest active head fits stop waiting => ?_⟩
    · rw [← s.rack.freeUnits_amendMoved k a moved] at stays
      rw [Rack.grantPass_stays s.store (r := s.rack.amendMoved k a moved) stays]
      exact ⟨rfl, own, fun j other => s.rack.slot_amendMoved_ne a moved other, rfl⟩
    · obtain rfl : e.slot = k := by simpa using List.find?_some found
      have pass := s.rack.grantPass_amendMoved (st := s.store) (a := a) (e := { e with priority := p }) head active fits stop
      obtain ⟨-, -, queue, -⟩ := Rack.rest_takeGrant s.store ((s.rack.amendMoved e.slot a rest).setUnits e.slot e.need) e.slot
      have held : ((s.rack.amendMoved e.slot a rest).setUnits e.slot e.need).slot e.slot = { s.rack.slot e.slot with
          record := some (c.amend a), stamp := (s.rack.slot e.slot).stamp + 1, units := e.need } := by
        rw [Rack.slot_setUnits_same, Rack.slot_amendMoved hc]
      have taken := Rack.takeGrant_spec (st := s.store) (congrArg Slot.record held) waiting
      have units := Rack.units_takeGrant s.store ((s.rack.amendMoved e.slot a rest).setUnits e.slot e.need) e.slot e.slot
      rw [held] at taken units
      rw [CaseRecord.amend, hp] at taken
      obtain ⟨stamped, notices, off, on⟩ := taken
      rw [pass]
      refine ⟨queue, units, stamped.trans ?_, notices, fun j other => ?_, off, on⟩
      · rw [BitVec.add_assoc]
        rfl
      · rw [Rack.slot_takeGrant_ne _ _ other, Rack.slot_setUnits_ne _ _ other, Rack.slot_amendMoved_ne _ _ _ other]

end Sys2Proof.Machine
end

section
/-! The stage advance: the stage-clean evidence, the new stay, the budget step and its outcome (R98 to R103, R125). -/

namespace Sys2Proof.Machine

/-! ## A PASS item and the stage-clean evidence (R45, R100) -/

theorem Rack.onlySlot_refl (k : SlotIx) (r : Rack) : Rack.onlySlot k r r := ⟨rfl, rfl, rfl, rfl, rfl, fun _ _ => rfl⟩

theorem Rack.onlySlot_stamp (r : Rack) (k : SlotIx) : Rack.onlySlot k r (r.stamp k) :=
  ⟨rfl, rfl, rfl, rfl, rfl, fun _ other => r.slot_stamp_ne other⟩

/-- A PASS item changes the slot of its case alone, and tells nobody. -/
theorem Rack.passItem_keeps (st : Store) (r : Rack) (k : SlotIx) (n : Nat) :
    Rack.onlySlot k r (r.passItem st k n) ∧ (r.passItem st k n).notices = r.notices := by
  unfold Rack.passItem
  split
  · exact ⟨r.onlySlot_refl k, rfl⟩
  · split
    · exact ⟨r.onlySlot_refl k, rfl⟩
    · dsimp only
      split
      · exact ⟨r.onlySlot_modCase k _, rfl⟩
      · exact ⟨Rack.onlySlot_trans (r.onlySlot_modCase k _) (Rack.onlySlot_stamp _ k), rfl⟩

/-- What a PASS item when a mark is yes does. -/
theorem Rack.passIf_keeps (st : Store) (r : Rack) (k : SlotIx) (n : Nat) (b : Bool) :
    r.evidence (if b then r.passItem st k n else r) ∧ Rack.onlySlot k r (if b then r.passItem st k n else r) ∧
      (if b then r.passItem st k n else r).notices = r.notices := by
  cases b with
  | false => exact ⟨r.evidence_refl, r.onlySlot_refl k, rfl⟩
  | true => exact ⟨r.evidence_passItem st k n, r.passItem_keeps st k n⟩

theorem Rack.stageClean_keeps (st : Store) (r : Rack) (k : SlotIx) (c : CaseRecord) :
    r.evidence (r.stageClean st k c) ∧ Rack.onlySlot k r (r.stageClean st k c) ∧
      (r.stageClean st k c).notices = r.notices := by
  obtain ⟨e1, o1, n1⟩ := r.passIf_keeps st k (caseModel st c).header.rail c.stay.railClean
  obtain ⟨e2, o2, n2⟩ := Rack.passIf_keeps st (if c.stay.railClean then r.passItem st k (caseModel st c).header.rail else r) k
    (caseModel st c).header.hang c.stay.hangClean
  exact ⟨Rack.evidence_trans e1 e2, Rack.onlySlot_trans o1 o2, n2.trans n1⟩

/-- A case with no suspect gets no stage-clean evidence. -/
theorem Rack.stageClean_nil {st : Store} {r : Rack} {k : SlotIx} {c : CaseRecord} (hc : (r.slot k).record = some c)
    (none : c.suspects = []) : r.stageClean st k c = r := by
  have nothing : ∀ n, r.passItem st k n = r := fun n => by
    unfold Rack.passItem
    rw [hc]
    dsimp only
    rw [none]
    rfl
  unfold Rack.stageClean
  dsimp only
  rw [nothing, ite_self, nothing, ite_self]

theorem CaseRecord.evidence_keeps {c d : CaseRecord} (h : c.evidence d) :
    d.model = c.model ∧ d.number = c.number ∧ d.priority = c.priority ∧ d.stay = c.stay := by
  obtain ⟨h, -⟩ := h
  rw [h]
  exact ⟨rfl, rfl, rfl, rfl⟩

/-- The record of a case after evidence. -/
theorem Rack.evidence_record {r r' : Rack} (h : r.evidence r') {k : SlotIx} {c : CaseRecord}
    (hc : (r.slot k).record = some c) : ∃ d, (r'.slot k).record = some d ∧ c.evidence d := by
  obtain ⟨-, -, -, -, -, -, slots⟩ := h
  obtain ⟨-, -, record⟩ := slots k
  exact record c hc

theorem Rack.evidence_slot {r r' : Rack} (h : r.evidence r') (k : SlotIx) :
    r'.slot k = { r.slot k with stamp := (r'.slot k).stamp, record := (r'.slot k).record } := by
  obtain ⟨-, -, -, -, -, -, slots⟩ := h
  obtain ⟨own, -⟩ := slots k
  exact own

/-! ## The new stay (R93, R102) -/

theorem Rack.slot_nextStay {st : Store} {r : Rack} {k : SlotIx} {d : CaseRecord} {m : Model}
    (hd : (r.slot k).record = some d) (model : caseModel st d = m) (p : Position) :
    (r.nextStay st k m p).slot k = { r.slot k with
      record := some { d with stay := Stay.begin p (m.stage p.stage) }
      rail := Rail.newMargin (m.stage p.stage).margin (r.slot k).rail
      watch := Watch.armBeat (m.stage p.stage).window (r.slot k).watch } := by
  rw [Rack.nextStay, Rack.slot_modWatch_same, Rack.slot_modRail_same, Rack.beginStay, Rack.slot_modCase_same, hd,
    Option.map_some, model]

theorem Rack.onlySlot_modRail (r : Rack) (k : SlotIx) (f : Rail → Rail) : Rack.onlySlot k r (r.modRail k f) :=
  ⟨rfl, rfl, rfl, rfl, rfl, fun _ other => r.slot_modRail_ne f other⟩

theorem Rack.onlySlot_modWatch (r : Rack) (k : SlotIx) (f : Watch → Watch) : Rack.onlySlot k r (r.modWatch k f) :=
  ⟨rfl, rfl, rfl, rfl, rfl, fun _ other => r.slot_modWatch_ne f other⟩

theorem Rack.onlySlot_modSeq (r : Rack) (k : SlotIx) (f : Sequencer → Sequencer) : Rack.onlySlot k r (r.modSeq k f) :=
  ⟨rfl, rfl, rfl, rfl, rfl, fun _ other => r.slot_modSeq_ne f other⟩

theorem Rack.onlySlot_modLine (r : Rack) (k : SlotIx) (f : Line → Line) : Rack.onlySlot k r (r.modLine k f) :=
  ⟨rfl, rfl, rfl, rfl, rfl, fun _ other => r.slot_modLine_ne f other⟩

theorem Rack.onlySlot_enter (r : Rack) (k : SlotIx) (cs : CaseState) : Rack.onlySlot k r (r.enter k cs) :=
  ⟨rfl, rfl, rfl, rfl, rfl, fun _ other => r.slot_enter_ne cs other⟩

theorem Rack.onlySlot_nextStay (st : Store) (r : Rack) (k : SlotIx) (m : Model) (p : Position) :
    Rack.onlySlot k r (r.nextStay st k m p) :=
  Rack.onlySlot_trans (Rack.onlySlot_trans (r.onlySlot_modCase k _) (Rack.onlySlot_modRail _ k _))
    (Rack.onlySlot_modWatch _ k _)

theorem Rack.notices_noticeSlot_congr {r r' : Rack} (k : SlotIx) (same : r'.notices = r.notices) :
    (r'.noticeSlot k).notices = (r.noticeSlot k).notices := by
  rw [Rack.noticeSlot, Rack.noticeSlot, same]

theorem Rack.freeUnits_onlySlot {r r' : Rack} {k : SlotIx} (h : Rack.onlySlot k r r')
    (units : (r'.slot k).units = (r.slot k).units) : r'.freeUnits = r.freeUnits := by
  obtain ⟨-, budget, -, -, -, others⟩ := h
  refine Rack.freeUnits_congr budget fun j => ?_
  by_cases same : j = k
  · rw [same, units]
  · rw [others j same]

/-- The units that are free once a slot has given its own back depend on the other slots. -/
theorem Rack.freeUnits_giveBack {r r' : Rack} {k : SlotIx} (h : Rack.onlySlot k r r') :
    (r'.setUnits k 0).freeUnits = (r.setUnits k 0).freeUnits := by
  obtain ⟨-, budget, -, -, -, others⟩ := h
  refine Rack.freeUnits_congr budget fun j => ?_
  rw [Rack.units_setUnits, Rack.units_setUnits]
  by_cases same : j = k
  · rw [if_pos same, if_pos same]
  · rw [if_neg same, if_neg same, others j same]

/-! ## The budget step (R103, R125) -/

/-- With an empty queue a need that fits is granted. -/
theorem Rack.budgetStep_granted (st : Store) {r : Rack} {k : SlotIx} {need : Nat} (empty : r.queue = [])
    (active : r.quiesce = .active) (fits : need = 0 ∨ need ≤ (r.setUnits k 0).freeUnits) :
    (r.budgetStep st k need).slot k = { r.slot k with units := need } ∧ Rack.onlySlot k r (r.budgetStep st k need) ∧
      (r.budgetStep st k need).notices = r.notices := by
  have step : r.budgetStep st k need = (r.setUnits k 0).setUnits k need := by
    have asked := Rack.askUnits_granted (r := r.setUnits k 0) (k := k) (need := need)
      (fits.imp_right fun h => And.intro empty (And.intro h active))
    rw [Rack.budgetStep, asked]
    exact Rack.grantPass_nil st _ empty
  rw [step]
  refine ⟨?_, Rack.onlySlot_trans (r.onlySlot_setUnits k 0) (Rack.onlySlot_setUnits _ k need), rfl⟩
  rw [Rack.slot_setUnits_same, Rack.slot_setUnits_same]

/-- A need that joins a queue whose head does not fit. -/
theorem Rack.budgetStep_joins (st : Store) {r : Rack} {k : SlotIx} {d : CaseRecord} {need : Nat} {joined : List QueueEntry}
    (hd : (r.slot k).record = some d) (some : need ≠ 0) (full : r.queue = [] → (r.setUnits k 0).freeUnits < need)
    (join : joined = joinQueue ⟨k, d.number, need, d.priority, false⟩ r.queue)
    (blocked : ∀ e rest, joined = e :: rest → (r.setUnits k 0).freeUnits < e.need) :
    r.budgetStep st k need = { r.setUnits k 0 with queue := joined } := by
  have asked := Rack.askUnits_joins (r := r.setUnits k 0) (k := k) (c := d) (by simpa using hd) some
    fun ⟨empty, fits, _⟩ => by
      have := full empty
      omega
  rw [Rack.budgetStep, asked, Rack.queue_setUnits, ← join]
  exact Rack.grantPass_stays st (.inr blocked)

/-! ## The advance (R100 to R103) -/

section Advance
variable {st : Store} {r : Rack} {k : SlotIx} {c d : CaseRecord} {p : Position} {m : Model}
  (hc : (r.slot k).record = some c) (hd : ((r.stageClean st k c).slot k).record = some d)
include hc hd

theorem Rack.evidence_of_stageClean : c.evidence d := by
  obtain ⟨d', hd', evidence⟩ := Rack.evidence_record (r.stageClean_keeps st k c).1 hc
  rw [hd] at hd'
  exact Option.some.inj hd' ▸ evidence

variable (hm : m = caseModel st c)
include hm

/-- An advance whose units are granted: the case stays in its state, in a new stay, with its program at step 1. -/
theorem Rack.stageAdvance_granted (next : m.nextPosition c.stay.position = some p) (empty : r.queue = [])
    (active : r.quiesce = .active)
    (fits : (m.stage p.stage).units = 0 ∨ (m.stage p.stage).units ≤ (r.setUnits k 0).freeUnits) :
    (r.stageAdvance st k).slot k = { (r.stageClean st k c).slot k with
      record := some { d with stay := Stay.begin p (m.stage p.stage) }
      units := (m.stage p.stage).units
      rail := Rail.newMargin (m.stage p.stage).margin (r.slot k).rail
      watch := Watch.armBeat (m.stage p.stage).window (r.slot k).watch
      seq := Sequencer.startProgram (r.slot k).seq } ∧
    Rack.onlySlot k r (r.stageAdvance st k) ∧ (r.stageAdvance st k).notices = r.notices := by
  obtain ⟨evidence, only, notices⟩ := r.stageClean_keeps st k c
  have model : caseModel st d = m := by
    rw [hm, caseModel, caseModel, (CaseRecord.evidence_keeps (Rack.evidence_of_stageClean hc hd)).1]
  have own := Rack.slot_nextStay hd model p
  have onlyStay := Rack.onlySlot_trans only (Rack.onlySlot_nextStay st (r.stageClean st k c) k m p)
  have ⟨_, _, queue, quiesce, _, _⟩ := onlyStay
  obtain ⟨units, onlyBudget, noticesBudget⟩ := Rack.budgetStep_granted st
    (r := (r.stageClean st k c).nextStay st k m p) (k := k) (need := (m.stage p.stage).units) (queue.trans empty) (quiesce.trans active)
    (by rwa [Rack.freeUnits_giveBack onlyStay])
  have advanced : r.stageAdvance st k =
      (((r.stageClean st k c).nextStay st k m p).budgetStep st k (m.stage p.stage).units).modSeq k Sequencer.startProgram := by
    have ⟨_, _, queue', _, _, _⟩ := onlyBudget
    unfold Rack.stageAdvance
    rw [hc]
    dsimp only
    rw [← hm, next]
    exact if_neg (by simp [Rack.queued, queue', queue, empty])
  rw [advanced]
  refine ⟨?_, Rack.onlySlot_trans (Rack.onlySlot_trans onlyStay onlyBudget) (Rack.onlySlot_modSeq _ k _), ?_⟩
  · rw [Rack.slot_modSeq_same, units, own, Rack.evidence_slot evidence k]
  · exact noticesBudget.trans notices

/-- An advance whose need joins the queue: the case waits with the rail on and the sequencer OFF. -/
theorem Rack.stageAdvance_joins {joined : List QueueEntry} (next : m.nextPosition c.stay.position = some p)
    (some : (m.stage p.stage).units ≠ 0) (full : r.queue = [] → (r.setUnits k 0).freeUnits < (m.stage p.stage).units)
    (join : joined = joinQueue ⟨k, c.number, (m.stage p.stage).units, c.priority, false⟩ r.queue)
    (blocked : ∀ e rest, joined = e :: rest → (r.setUnits k 0).freeUnits < e.need) :
    (r.stageAdvance st k).slot k = { (r.stageClean st k c).slot k with
      record := .some { d with state := .waiting, stay := Stay.begin p (m.stage p.stage) }
      stamp := ((r.stageClean st k c).slot k).stamp + 1
      units := 0
      rail := Rail.newMargin (m.stage p.stage).margin (r.slot k).rail
      watch := Watch.armBeat (m.stage p.stage).window (r.slot k).watch
      seq := { (r.slot k).seq with mode := .off } } ∧
    (r.stageAdvance st k).queue = joined ∧ (r.stageAdvance st k).quiesce = r.quiesce ∧
    (r.stageAdvance st k).bench = r.bench ∧
    (∀ j, j ≠ k → (r.stageAdvance st k).slot j = r.slot j) ∧ (r.stageAdvance st k).notices = (r.noticeSlot k).notices := by
  obtain ⟨evidence, only, notices⟩ := r.stageClean_keeps st k c
  obtain ⟨sameModel, number, priority, -⟩ := CaseRecord.evidence_keeps (Rack.evidence_of_stageClean hc hd)
  have model : caseModel st d = m := by rw [hm, caseModel, caseModel, sameModel]
  have own := Rack.slot_nextStay hd model p
  have onlyStay := Rack.onlySlot_trans only (Rack.onlySlot_nextStay st (r.stageClean st k c) k m p)
  have ⟨_, _, queue, quiesce, bench, others⟩ := onlyStay
  have step := Rack.budgetStep_joins st (r := (r.stageClean st k c).nextStay st k m p) (k := k)
    (joined := joined) (congrArg Slot.record own) some
    (by rwa [Rack.freeUnits_giveBack onlyStay, queue]) (by rw [join, number, priority, queue])
    (by rwa [Rack.freeUnits_giveBack onlyStay])
  have advanced : r.stageAdvance st k =
      (Rack.enter { ((r.stageClean st k c).nextStay st k m p).setUnits k 0 with queue := joined } k .waiting).modSeq k
        (fun q => { q with mode := .off }) := by
    unfold Rack.stageAdvance
    rw [hc]
    dsimp only
    rw [← hm, next]
    dsimp only
    rw [step]
    exact if_pos (join ▸ Rack.queued_joinQueue _ _ _)
  rw [advanced]
  refine ⟨?_, rfl, quiesce, bench, fun j other => ?_, ?_⟩
  · have own0 : Rack.slot { ((r.stageClean st k c).nextStay st k m p).setUnits k 0 with queue := joined } k =
        { ((r.stageClean st k c).nextStay st k m p).slot k with units := 0 } := Rack.slot_setUnits_same _ k 0
    rw [Rack.slot_modSeq_same, Rack.slot_enter_same, own0, own, Rack.evidence_slot evidence k]
    rfl
  · rw [Rack.slot_modSeq_ne _ _ other, Rack.slot_enter_ne _ _ other]
    exact (Rack.slot_setUnits_ne _ _ other).trans (others j other)
  · exact Rack.notices_noticeSlot_congr k notices

/-- An advance past the last position: the profile ends. -/
theorem Rack.stageAdvance_ends (last : m.nextPosition c.stay.position = none) :
    r.stageAdvance st k = ((r.stageClean st k c).modStay k fun y => { y with draining := false, heldAdvance := false }).endRun
      st k (.done .complete (verdictOf d.suspects)) := by
  unfold Rack.stageAdvance
  rw [hc]
  dsimp only
  rw [← hm, last]
  change Rack.endProfile st (r.stageClean st k c) k = _
  unfold Rack.endProfile Rack.doneState Slot.suspects
  dsimp only
  rw [Rack.slot_modStay_same, hd]
  rfl

end Advance

/-! ## The advance at a drain boundary (R96, R98) -/

/-- At a drain boundary of a RUNNING case in an ACTIVE rack, what follows is the advance and then what follows it. -/
theorem Rack.takeOrHoldAdvance_takes (st : Store) {r : Rack} {k : SlotIx} (draining : (r.slot k).stay.draining = true)
    (program : (r.slot k).seq.mode = .program) (boundary : (r.slot k).atBoundary = true)
    (running : (r.slot k).caseState = some .running) (active : r.quiesce = .active) (free : r.isGranted k = false) :
    r.takeOrHoldAdvance st k = r.stageAdvance st k := by
  unfold Rack.takeOrHoldAdvance
  dsimp only
  rw [if_pos ⟨draining, program, boundary⟩, if_pos ⟨running, active, by simp [free]⟩]

/-- A drain boundary that may not advance now is held. -/
theorem Rack.takeOrHoldAdvance_holds (st : Store) {r : Rack} {k : SlotIx} (draining : (r.slot k).stay.draining = true)
    (program : (r.slot k).seq.mode = .program) (boundary : (r.slot k).atBoundary = true)
    (held : (r.slot k).caseState ≠ some .running ∨ r.quiesce ≠ .active ∨ r.isGranted k = true) :
    r.takeOrHoldAdvance st k = r.modStay k fun y => { y with heldAdvance := true } := by
  unfold Rack.takeOrHoldAdvance
  dsimp only
  rw [if_pos ⟨draining, program, boundary⟩]
  refine if_neg fun ⟨running, active, free⟩ => ?_
  rcases held with h | h | h
  · exact h running
  · exact h active
  · exact free h

/-- After an advance that leaves the slot with no drain boundary, what follows is what follows in the advanced rack. -/
theorem Rack.proceed_advance (st : Store) {r r' : Rack} {k : SlotIx} (taken : r.takeOrHoldAdvance st k = r')
    (still : (r'.slot k).stay.draining = false ∨ (r'.slot k).seq.mode ≠ .program ∨ (r'.slot k).atBoundary = false) :
    r.proceed st k = r'.proceed st k := by
  unfold Rack.proceed
  rw [taken, Rack.takeOrHoldAdvance_still st r' k still]

/-- Where no HOLD is pending and the rack is not QUIESCING, what follows without an advance is the next issue. -/
theorem Rack.proceed_issues (st : Store) {r : Rack} {k : SlotIx} (active : r.quiesce ≠ .quiescing)
    (unpended : ∀ j, r.isPending j = true → (r.slot j).atBoundary = false)
    (still : (r.slot k).stay.draining = false ∨ (r.slot k).seq.mode ≠ .program ∨ (r.slot k).atBoundary = false) :
    r.proceed st k = Rack.issue st r k := by
  unfold Rack.proceed
  rw [Rack.takeOrHoldAdvance_still st r k still, Rack.grantPending_inRun r unpended]
  obtain ⟨-, -, -, quiesce, -, -⟩ := Rack.rest_issue st r k
  exact Rack.checkQuiesced_running (.inl (by rwa [quiesce]))

theorem Rack.unpended_of_idle {r : Rack} (idle : r.bench.state = .idle) (j : SlotIx) (h : r.isPending j = true) :
    (r.slot j).atBoundary = false := by
  simp [Rack.isPending, idle] at h

section Due
variable {st : Store} {r : Rack} {k : SlotIx} {c : CaseRecord} {p : Position} (due : r.advanceDue st k c p)
include due

theorem Rack.stay_of_advanceDue : (r.slot k).stay.draining = true := by
  obtain ⟨hc, draining, -⟩ := due
  rw [Slot.stay, hc]
  exact draining

variable (running : c.state = .running) (active : r.quiesce = .active) (free : r.isGranted k = false)
include running active free

/-- The rack after the advance that is due. -/
theorem Rack.takeOrHoldAdvance_due : (r.takeOrHoldAdvance st k).slot k = { r.slot k with
      record := some { c with stay := Stay.begin p ((caseModel st c).stage p.stage) }
      units := ((caseModel st c).stage p.stage).units
      rail := Rail.newMargin ((caseModel st c).stage p.stage).margin (r.slot k).rail
      watch := Watch.armBeat ((caseModel st c).stage p.stage).window (r.slot k).watch
      seq := Sequencer.startProgram (r.slot k).seq } ∧
    Rack.onlySlot k r (r.takeOrHoldAdvance st k) ∧ (r.takeOrHoldAdvance st k).notices = r.notices := by
  have draining := Rack.stay_of_advanceDue due
  obtain ⟨hc, -, program, boundary, clean, next, empty, fits⟩ := due
  rw [Rack.takeOrHoldAdvance_takes st draining program boundary (by rw [Slot.caseState_of_record hc, running]) active free]
  have judged := Rack.stageClean_nil (st := st) hc clean
  have advanced := Rack.stageAdvance_granted (st := st) hc (judged ▸ hc) rfl next empty active fits
  rwa [judged] at advanced

end Due

end Sys2Proof.Machine
end

section
/-! CASE PAUSE, CASE RESUME and CASE STOP (R12 to R15, R19). -/

namespace Sys2Proof.Machine

/-! ## What follows an advance that was due -/

theorem Watch.armedFrom_armBeat (window : Nat) (w : Watch) : Watch.armedFrom window 0 w (Watch.armBeat window w) :=
  ⟨fun zero => if_pos zero, fun some => if_neg some⟩

theorem Rack.proceed_due {st : Store} {r : Rack} {k : SlotIx} {c : CaseRecord} {p : Position} (due : r.advanceDue st k c p)
    (running : c.state = .running) (active : r.quiesce = .active) (free : r.isGranted k = false) :
    r.advancedTo st (r.proceed st k) k c p ∧ ((r.proceed st k).slot k).stamp = (r.slot k).stamp ∧
      ∀ j, r.notices.hasSlot j = true → (r.proceed st k).notices.hasSlot j = true := by
  obtain ⟨own, -, notices⟩ := Rack.takeOrHoldAdvance_due due running active free
  have still : ((r.takeOrHoldAdvance st k).slot k).stay.draining = false := by rw [own]; rfl
  rw [Rack.proceed_advance st rfl (.inl still)]
  obtain ⟨-, -, -, ⟨l, run, after⟩, -⟩ := Rack.proceed_still st (r.takeOrHoldAdvance st k) k (.inl still)
  rw [own] at after
  refine ⟨?_, ?_, fun j told => ?_⟩
  · rw [Rack.advancedTo, after]
    exact ⟨by rw [← running], rfl, rfl, rfl, rfl, rfl, Watch.armedFrom_armBeat _ _⟩
  · rw [after]
  · exact Rack.hasSlot_proceed_still st _ j k (by rwa [notices]) (.inl still)

/-! ## CASE PAUSE (R12) -/

theorem casePause_taken {a : SlotArgs} {s : State} {k : SlotIx} {c : CaseRecord} (slot : a.slot.toNat = k.val + 1)
    (use : s.rack.inUse k = true) (hc : (s.rack.slot k).record = some c) (running : c.state = .running) :
    casePause a s = doneCase (s.withRack (s.rack.enter k .paused)) k := by
  rw [casePause, State.onCase_open slot use hc]
  exact if_neg (not_not_intro running)

theorem Rack.slot_enter_record {r : Rack} {k : SlotIx} {c : CaseRecord} (hc : (r.slot k).record = some c) (cs : CaseState) :
    (r.enter k cs).slot k = { r.slot k with record := some { c with state := cs }, stamp := (r.slot k).stamp + 1 } := by
  rw [Rack.slot_enter_same, hc]
  rfl

/-! ## CASE RESUME (R13, R14, R19) -/

section Resume
variable {a : SlotArgs} {s : State} {k : SlotIx} {c : CaseRecord} (slot : a.slot.toNat = k.val + 1)
    (use : s.rack.inUse k = true) (hc : (s.rack.slot k).record = some c) (closed : (s.rack.slot k).latchClosed = true)
    (active : s.rack.quiesce = .active) (fits : (caseModel s.store c).largestNeed ≤ s.rack.budgetUnits)
include slot use hc closed active fits

theorem caseResume_paused (paused : c.state = .paused) :
    caseResume a s = doneCase (s.withRack (s.rack.resumePaused s.store k)) k := by
  rw [caseResume, State.onCase_open slot use hc]
  rw [State.needTooGreat_eq_false fits, if_neg (by decide), paused]
  dsimp only
  rw [closed, if_neg (by decide), if_neg (not_not_intro active)]

theorem caseResume_faulted {f : FaultCause} (faulted : c.state = .faulted f) :
    caseResume a s = doneCase (s.withRack (s.rack.resumeFaulted s.store k c)) k := by
  rw [caseResume, State.onCase_open slot use hc]
  rw [State.needTooGreat_eq_false fits, if_neg (by decide), faulted]
  dsimp only
  rw [closed, if_neg (by decide), if_neg (not_not_intro active)]

end Resume

section Resumed
variable {r : Rack} {k : SlotIx} {c : CaseRecord} (hc : (r.slot k).record = some c)

/-- A PAUSED case back in RUNNING, before what follows. -/
def Rack.unpaused (r : Rack) (k : SlotIx) : Rack := (r.modCase k fun c => { c with strikes := 0 }).enter k .running

include hc in
theorem Rack.slot_unpaused : (r.unpaused k).slot k =
    { r.slot k with record := some { c with state := .running, strikes := 0 }, stamp := (r.slot k).stamp + 1 } := by
  rw [Rack.unpaused, Rack.slot_enter_record (congrArg Slot.record (Rack.slot_noStrikes hc)), Rack.slot_noStrikes hc]

theorem Rack.onlySlot_unpaused (r : Rack) (k : SlotIx) : Rack.onlySlot k r (r.unpaused k) :=
  Rack.onlySlot_trans (r.onlySlot_modCase k _) (Rack.onlySlot_enter _ k _)

/-- The rack in which a FAULTED case begins its fresh run. -/
def Rack.freshRun (st : Store) (r : Rack) (k : SlotIx) (c : CaseRecord) : Rack :=
  (r.beginStay st k c.stay.position).untrip k

include hc in
theorem Rack.slot_freshRun (st : Store) : (r.freshRun st k c).slot k = { r.slot k with
    record := some { c with stay := Stay.begin c.stay.position (caseStage st c) }
    rail := { (r.slot k).rail with
      state := if (r.slot k).rail.state = .tripped then .off else (r.slot k).rail.state } } := by
  rw [Rack.freshRun, Rack.slot_untrip_same, Rack.beginStay, Rack.slot_modCase_same, hc]
  rfl

theorem Rack.onlySlot_freshRun (st : Store) (r : Rack) (k : SlotIx) (c : CaseRecord) :
    Rack.onlySlot k r (r.freshRun st k c) :=
  Rack.onlySlot_trans (r.onlySlot_modCase k _) (Rack.onlySlot_modRail _ k _)

end Resumed

/-- Settles O22. -/
theorem pauseAndResumeHoldTheRun : Obligations.PauseAndResumeHoldTheRun := by
  refine ⟨fun s a k c h slot use hc running => ?_, fun s a k c h slot use hc closed active fits =>
    ⟨fun paused calm => ?_, fun p paused free due => ?_, fun f faulted unqueued grants => ?_⟩⟩
  · have own := Rack.slot_enter_record hc .paused
    refine ⟨_, exec_doneCase h rfl (casePause_taken (s := s.completed) slot use hc running), own, ?_, ?_,
      s.rack.onlySlot_enter k .paused, rfl⟩
    · refine Rack.heaterDuty_of_phase_none (Rack.phase_not_running (congrArg Slot.record own) ?_)
      exact fun h => by cases h
    · change ((s.rack.enter k .paused).slot k).caseState == some .paused
      rw [own]
      rfl
  · have own := Rack.slot_unpaused hc
    have still : ((s.rack.unpaused k).slot k).stay.draining = false := by
      rw [own]
      exact calm
    obtain ⟨wide, budget, queue, ⟨l, run, after⟩, others⟩ := Rack.proceed_still s.store (s.rack.unpaused k) k (.inl still)
    rw [own] at after
    refine ⟨(s.rack.unpaused k).proceed s.store k,
      exec_doneCase h rfl (caseResume_paused (s := s.completed) slot use hc closed active fits paused), ?_⟩
    rw [after]
    refine ⟨rfl, rfl, rfl, rfl, rfl, wide, budget, ?_, fun j other _ pending => ?_⟩
    · rw [queue]
      exact List.Sublist.refl _
    · obtain ⟨-, -, -, -, -, same⟩ := s.rack.onlySlot_unpaused k
      exact (others j other pending).trans (same j other)
  · have own := Rack.slot_unpaused hc
    obtain ⟨_, draining, program, boundary, clean, next, empty, room⟩ := due
    have due' : (s.rack.unpaused k).advanceDue s.store k { c with state := .running, strikes := 0 } p := by
      refine ⟨congrArg Slot.record own, draining, ?_, ?_, clean, next, empty, ?_⟩
      · rw [own]
        exact program
      · rw [own]
        exact boundary
      · rw [Rack.freeUnits_giveBack (s.rack.onlySlot_unpaused k)]
        exact room
    obtain ⟨advanced, stamp, told⟩ := Rack.proceed_due due' rfl active free
    refine ⟨(s.rack.unpaused k).proceed s.store k,
      exec_doneCase h rfl (caseResume_paused (s := s.completed) slot use hc closed active fits paused), ?_, ?_, told k ?_⟩
    · rw [Rack.advancedTo, own] at advanced
      exact advanced
    · rw [stamp, own]
    · simp [Rack.unpaused]
  · have own := Rack.slot_freshRun hc s.store
    have only := s.rack.onlySlot_freshRun s.store k c
    have free : (s.rack.freshRun s.store k c).freeUnits = s.rack.freeUnits :=
      Rack.freeUnits_onlySlot only (by rw [own])
    obtain ⟨begun, onlyBegun, notices⟩ := Rack.beginRun_granted s.store (congrArg Slot.record own)
      (by rw [faulted]; exact CaseState.noConfusion) active unqueued (grants.imp_right fun room => .inl (by rw [free]; exact room))
    refine ⟨_, exec_doneCase h rfl (caseResume_faulted (s := s.completed) slot use hc closed active fits faulted), ?_,
      Rack.onlySlot_trans only onlyBegun, notices⟩
    rw [own] at begun
    exact begun

/-! ## CASE STOP (R15) -/

theorem CaseState.stoppable_iff {cs : CaseState} (h : cs.inRun = true ∨ ∃ f, cs = .faulted f) : cs.stoppable = true := by
  rcases h with run | ⟨f, rfl⟩
  · cases cs <;> simp_all [CaseState.inRun, CaseState.stoppable]
  · rfl

theorem caseStop_taken {a : SlotArgs} {s : State} {k : SlotIx} {c : CaseRecord} (slot : a.slot.toNat = k.val + 1)
    (use : s.rack.inUse k = true) (hc : (s.rack.slot k).record = some c)
    (run : c.state.inRun = true ∨ ∃ f, c.state = .faulted f) :
    caseStop a s = doneCase (s.withRack (s.rack.stopCase s.store k)) k := by
  rw [caseStop, State.onCase_open slot use hc]
  exact if_pos (CaseState.stoppable_iff run)

/-- The end of a run in a held rack grants nothing to others. -/
theorem Rack.endRun_held (st : Store) {r : Rack} (k : SlotIx) (cs : CaseState) (held : r.quiesce ≠ .active) :
    r.endRun st k cs = ((r.dropRun k).giveBack k).enter k cs :=
  Rack.grantPass_stays st (r := ((r.dropRun k).giveBack k).enter k cs) (.inl (by simpa using held))

/-- A HOLD that is given at a boundary leaves idle what was idle. -/
theorem Rack.isIdle_grantPending (r : Rack) (j : SlotIx) : r.grantPending.isIdle j = r.isIdle j := by
  unfold Rack.grantPending
  cases bench : r.bench.state with
  | idle => rfl
  | granted i => rfl
  | pending i =>
    dsimp only
    split
    · next boundary =>
      by_cases same : j = i
      · subst same
        simp [Rack.isIdle, Rack.benchGrant, Rack.isGranted, Slot.atBoundary] at boundary ⊢
        simp [boundary]
      · have := Ne.symm same
        simp [Rack.isIdle, Rack.benchGrant, Rack.isGranted, bench, same, this]
    · rfl

/-- When every slot of a QUIESCING rack is idle, what follows with nothing to advance or issue makes it QUIESCED. -/
theorem Rack.proceed_quiesces (st : Store) {r : Rack} {k : SlotIx} (off : (r.slot k).seq.mode = .off)
    (quiescing : r.quiesce = .quiescing) :
    ((∀ j, r.inUse j = true → r.isIdle j = true) →
      (r.proceed st k).quiesce = .quiesced ∧ (r.proceed st k).notices.flags = r.notices.flags ||| 1) ∧
    ((∃ j, r.inUse j = true ∧ r.isIdle j = false) →
      (r.proceed st k).quiesce = .quiescing ∧ (r.proceed st k).notices.flags = r.notices.flags) := by
  obtain ⟨wide, -, -, quiesce, flags⟩ := r.rest_grantPending
  have off' : (r.grantPending.slot k).seq.mode = .off := by
    rcases r.slot_grantPending k with own | ⟨-, own⟩
    all_goals rw [own]; exact off
  have follows : r.proceed st k = r.grantPending.checkQuiesced := by
    unfold Rack.proceed
    rw [Rack.takeOrHoldAdvance_still st r k (.inr (.inl (by simp [off]))), Rack.issue_off st _ k off']
  have inUse : ∀ j, r.grantPending.inUse j = r.inUse j := fun j => by simp only [Rack.inUse, wide]
  rw [follows]
  constructor
  · intro idle
    rw [Rack.checkQuiesced_idle (quiesce.trans quiescing) fun j use => by
      rw [Rack.isIdle_grantPending]
      exact idle j (inUse j ▸ use)]
    exact ⟨rfl, congrArg (· ||| 1) flags⟩
  · rintro ⟨j, use, busy⟩
    rw [Rack.checkQuiesced_running (.inr ⟨j, (inUse j).trans use, (Rack.isIdle_grantPending r j).trans busy⟩)]
    exact ⟨quiesce.trans quiescing, flags⟩

/-- A run that ends leaves its slot idle, and the others of a held rack as they were. -/
theorem Rack.isIdle_endRun_same (st : Store) (r : Rack) (k : SlotIx) (cs : CaseState) :
    (r.endRun st k cs).isIdle k = true := by
  obtain ⟨own, -⟩ := Rack.endRun_spec st r k cs
  simp [Rack.isIdle, own, Slot.atBoundary]

theorem Rack.isIdle_endRun_ne (st : Store) {r : Rack} {k : SlotIx} (cs : CaseState) (held : r.quiesce ≠ .active)
    {j : SlotIx} (other : j ≠ k) : (r.endRun st k cs).isIdle j = r.isIdle j := by
  rw [Rack.endRun_held st k cs held]
  simp [Rack.isIdle, Rack.isGranted, other]

/-- The end of a run is the end of QUIESCING when the other slots are idle. -/
theorem Rack.endRun_proceed_quiesces (st : Store) {r : Rack} {k : SlotIx} (cs : CaseState) (quiescing : r.quiesce = .quiescing) :
    ((∀ j, j ≠ k → r.inUse j = true → r.isIdle j = true) →
      ((r.endRun st k cs).proceed st k).quiesce = .quiesced ∧
        ((r.endRun st k cs).proceed st k).notices.flags = r.notices.flags ||| 1) ∧
    ((∃ j, j ≠ k ∧ r.inUse j = true ∧ r.isIdle j = false) →
      ((r.endRun st k cs).proceed st k).quiesce = .quiescing ∧
        ((r.endRun st k cs).proceed st k).notices.flags = r.notices.flags) := by
  have held : r.quiesce ≠ .active := by rw [quiescing]; decide
  obtain ⟨own, wide, -, quiesce, -, flags, -⟩ := Rack.endRun_spec st r k cs
  obtain ⟨done, runs⟩ := Rack.proceed_quiesces st (r := r.endRun st k cs) (k := k) (by rw [own]; simp)
    (quiesce.trans quiescing)
  have inUse : ∀ j, (r.endRun st k cs).inUse j = r.inUse j := fun j => by simp only [Rack.inUse, wide]
  rw [flags] at done runs
  refine ⟨fun idle => done fun j use => ?_, fun ⟨j, other, use, busy⟩ => runs ⟨j, (inUse j).trans use, ?_⟩⟩
  · by_cases same : j = k
    · rw [same, Rack.isIdle_endRun_same]
    · rw [Rack.isIdle_endRun_ne st cs held same]
      exact idle j same (inUse j ▸ use)
  · rw [Rack.isIdle_endRun_ne st cs held other, busy]

/-- The rail of a stopped case is OFF, from TRIPPED too (R137). -/
theorem RailState.off_of_untrip (l : RailState) :
    (if (if l = .tripped then RailState.off else l).isOn then RailState.off else if l = .tripped then .off else l) = .off := by
  cases l <;> rfl

/-- The rack in which a stopped case leaves its run. -/
def Rack.stopped (r : Rack) (k : SlotIx) : Rack :=
  (r.untrip k).modStay k fun y => { y with draining := false, heldAdvance := false }

theorem Rack.slot_stopped {r : Rack} {k : SlotIx} {c : CaseRecord} (hc : (r.slot k).record = some c) :
    (r.stopped k).slot k = { r.slot k with
      record := some { c with stay := { c.stay with draining := false, heldAdvance := false } }
      rail := { (r.slot k).rail with
        state := if (r.slot k).rail.state = .tripped then .off else (r.slot k).rail.state } } := by
  rw [Rack.stopped, Rack.slot_modStay_same, Rack.slot_untrip_same]
  simp [hc]

theorem Rack.onlySlot_stopped (r : Rack) (k : SlotIx) : Rack.onlySlot k r (r.stopped k) :=
  Rack.onlySlot_trans (r.onlySlot_modRail k _) (Rack.onlySlot_modStay _ k _)

theorem Rack.stopCase_eq {st : Store} {r : Rack} {k : SlotIx} {c : CaseRecord} (hc : (r.slot k).record = some c) :
    r.stopCase st k = ((r.stopped k).endRun st k (.done .stopped (verdictOf c.suspects))).proceed st k := by
  have verdict : (r.stopped k).doneState k .stopped = .done .stopped (verdictOf c.suspects) := by
    rw [Rack.doneState, Slot.suspects, Rack.slot_stopped hc]
  rw [← verdict]
  rfl

/-- Settles O23. -/
theorem caseStopEndsTheRun : Obligations.CaseStopEndsTheRun := by
  intro s a k c h slot use hc run
  have own := Rack.slot_stopped hc
  obtain ⟨wide, budget, queue, quiesce, bench, others⟩ := s.rack.onlySlot_stopped k
  have inUse : ∀ j, (s.rack.stopped k).inUse j = s.rack.inUse j := fun j => by simp only [Rack.inUse, wide]
  have queued : ∀ j, (s.rack.stopped k).queued j = s.rack.queued j := fun j => by simp only [Rack.queued, queue]
  have pending : ∀ j, (s.rack.stopped k).isPending j = s.rack.isPending j := fun j => by simp only [Rack.isPending, bench]
  have idle : ∀ j, j ≠ k → (s.rack.stopped k).isIdle j = s.rack.isIdle j := fun j other => by
    simp only [Rack.isIdle, Rack.isGranted, bench, others j other]
  obtain ⟨⟨l, exchange, -, after⟩, wide', budget', queue', unqueued, others'⟩ :=
    Rack.endRun_proceed_spec s.store (s.rack.stopped k) k (.done .stopped (verdictOf c.suspects))
  have told := Rack.hasSlot_proceed_still s.store _ k k
    (Rack.hasSlot_endRun s.store (s.rack.stopped k) k (.done .stopped (verdictOf c.suspects)))
    (.inr (.inl (by rw [(Rack.endRun_spec s.store (s.rack.stopped k) k _).1]; simp)))
  refine ⟨s.rack.stopCase s.store k, exec_doneCase h rfl (caseStop_taken (s := s.completed) slot use hc run), ?_⟩
  rw [Rack.stopCase_eq hc, after, own]
  refine ⟨rfl, rfl, rfl, unqueued, ?_, ?_, exchange, Rack.mode_dropRun _ _, ?_, ?_, ⟨wide'.trans wide, budget'.trans budget,
    queue ▸ queue', fun j other free calm => ?_⟩, told, fun p => ?_, fun quiescing => ?_⟩
  · rw [Rack.rail_dropRun, own]
    exact RailState.off_of_untrip _
  · simp
  · simp
  · simp
  · exact (others' j other ((queued j).trans free) ((pending j).trans calm)).trans (others j other)
  · have given := Rack.endRun_proceed_pending s.store (s.rack.stopped k) k (.done .stopped (verdictOf c.suspects))
      ((pending k).trans p)
    rwa [after] at given
  · obtain ⟨done, runs⟩ := Rack.endRun_proceed_quiesces s.store (k := k) (.done .stopped (verdictOf c.suspects))
      (quiesce.trans quiescing)
    obtain ⟨-, -, -, -, -, others⟩ := s.rack.onlySlot_stopped k
    refine ⟨fun all => done fun j other used => ?_, fun ⟨j, other, used, busy⟩ => runs ⟨j, other, ?_, ?_⟩⟩
    · rw [idle j other]
      exact all j other (inUse j ▸ used)
    · rw [inUse, used]
    · rw [idle j other, busy]

end Sys2Proof.Machine
end

section
/-! RACK WAKE and RACK RESTART (R26, R116, R117, R129, R130, R214, R230). -/

namespace Sys2Proof.Machine

/-! ## What the actions of a wake leave of the rack -/

/-- The rack outside its slots, its queue and the slots of its notice set is the same. -/
def Rack.sameHouse (r r' : Rack) : Prop :=
  r'.quiesce = r.quiesce ∧ r'.budget = r.budget ∧ r'.bench = r.bench ∧ r'.notices.flags = r.notices.flags

theorem Rack.sameHouse_refl (r : Rack) : Rack.sameHouse r r := ⟨rfl, rfl, rfl, rfl⟩

theorem Rack.sameHouse_trans {a b c : Rack} (h : Rack.sameHouse a b) (g : Rack.sameHouse b c) : Rack.sameHouse a c := by
  obtain ⟨h1, h2, h3, h4⟩ := h
  obtain ⟨g1, g2, g3, g4⟩ := g
  exact ⟨g1.trans h1, g2.trans h2, g3.trans h3, g4.trans h4⟩

theorem Rack.sameHouse_foldl {β : Type} {f : Rack → β → Rack} (h : ∀ r b, Rack.sameHouse r (f r b)) (l : List β) (r : Rack) :
    Rack.sameHouse r (l.foldl f r) := by
  induction l generalizing r with
  | nil => exact r.sameHouse_refl
  | cons b l ih => exact Rack.sameHouse_trans (h r b) (ih _)

theorem Rack.sameHouse_grantPass (st : Store) (r : Rack) : Rack.sameHouse r (r.grantPass st) := by
  obtain ⟨-, budget, quiesce, bench, flags, -⟩ := r.grantPass_spec st
  exact ⟨quiesce, budget, bench, flags⟩

theorem Rack.sameHouse_issue (st : Store) (r : Rack) (k : SlotIx) : Rack.sameHouse r (Rack.issue st r k) := by
  obtain ⟨-, budget, -, quiesce, bench, notices⟩ := r.rest_issue st k
  exact ⟨quiesce, budget, bench, congrArg NoticeSet.flags notices⟩

theorem Rack.sameHouse_askUnits (r : Rack) (k : SlotIx) (need : Nat) : Rack.sameHouse r (r.askUnits k need) := by
  unfold Rack.askUnits
  split
  · exact ⟨rfl, rfl, rfl, rfl⟩
  · split
    · exact ⟨rfl, rfl, rfl, rfl⟩
    · split
      · exact r.sameHouse_refl
      · exact ⟨rfl, rfl, rfl, rfl⟩

theorem Rack.sameHouse_afterBudget (r : Rack) (k : SlotIx) : Rack.sameHouse r (r.afterBudget k) := by
  unfold Rack.afterBudget
  split
  · exact ⟨rfl, rfl, rfl, rfl⟩
  · exact ⟨rfl, rfl, rfl, rfl⟩

theorem Rack.sameHouse_evidence {r r' : Rack} (h : r.evidence r') : Rack.sameHouse r r' := by
  obtain ⟨-, budget, -, quiesce, bench, flags, -⟩ := h
  exact ⟨quiesce, budget, bench, flags⟩

theorem Rack.sameHouse_endRun (st : Store) (r : Rack) (k : SlotIx) (cs : CaseState) : Rack.sameHouse r (r.endRun st k cs) := by
  obtain ⟨-, -, budget, quiesce, bench, flags, -⟩ := r.endRun_spec st k cs
  exact ⟨quiesce, budget, bench, flags⟩

theorem Rack.sameHouse_stageAdvance (st : Store) (r : Rack) (k : SlotIx) : Rack.sameHouse r (r.stageAdvance st k) := by
  unfold Rack.stageAdvance
  split
  · exact r.sameHouse_refl
  · next c _ =>
    have clean := Rack.sameHouse_evidence (r.stageClean_keeps st k c).1
    dsimp only
    split
    · exact Rack.sameHouse_trans clean (Rack.sameHouse_endRun st ((r.stageClean st k c).modStay k _) k _)
    · next p _ =>
      have stay : Rack.sameHouse (r.stageClean st k c) ((r.stageClean st k c).nextStay st k (caseModel st c) p) :=
        ⟨rfl, rfl, rfl, rfl⟩
      have budget := Rack.sameHouse_trans (Rack.sameHouse_askUnits
          (((r.stageClean st k c).nextStay st k (caseModel st c) p).setUnits k 0) k
            ((caseModel st c).stage p.stage).units) (Rack.sameHouse_grantPass st _)
      exact Rack.sameHouse_trans (Rack.sameHouse_trans clean stay) (Rack.sameHouse_trans budget (Rack.sameHouse_afterBudget _ k))

theorem Rack.sameHouse_takeOrHoldAdvance (st : Store) (r : Rack) (k : SlotIx) :
    Rack.sameHouse r (r.takeOrHoldAdvance st k) := by
  unfold Rack.takeOrHoldAdvance
  dsimp only
  split
  · split
    · exact r.sameHouse_stageAdvance st k
    · exact ⟨rfl, rfl, rfl, rfl⟩
  · exact r.sameHouse_refl

theorem Rack.sameHouse_takeWakeAction (st : Store) (r : Rack) (a : WakeAction) :
    Rack.sameHouse r (r.takeWakeAction st a) := by
  cases a with
  | grantPass => exact r.sameHouse_grantPass st
  | advance k => exact r.sameHouse_takeOrHoldAdvance st k

theorem Rack.sameHouse_wake (st : Store) (draw : Nat) (r : Rack) :
    Rack.sameHouse { r with quiesce := .active } (r.wake st draw) :=
  Rack.sameHouse_trans (Rack.sameHouse_foldl (fun r => r.sameHouse_takeWakeAction st) _ _)
    (Rack.sameHouse_foldl (fun r => r.sameHouse_issue st) _ _)

/-! ## The issues of a wake -/

/-- The issue in a slot depends on the slot, the quiesce state and the bench. -/
theorem Rack.slot_issue_congr (st : Store) {r r' : Rack} {k : SlotIx} (own : r'.slot k = r.slot k)
    (quiesce : r'.quiesce = r.quiesce) (bench : r'.bench = r.bench) :
    (Rack.issue st r' k).slot k = (Rack.issue st r k).slot k := by
  have why : r'.stopReasons k = r.stopReasons k := by
    simp only [Rack.stopReasons, Rack.isPending, Rack.isGranted, own, quiesce, bench]
  unfold Rack.issue
  rw [own]
  cases (r.slot k).record with
  | none => exact own
  | some c =>
    have may : mayIssue st r' k c = mayIssue st r k c := by simp only [mayIssue, own, why]
    dsimp only
    rw [may]
    cases mayIssue st r k c with
    | false => exact own
    | true =>
      rw [if_pos rfl, if_pos rfl]
      cases (r.slot k).seq.mode with
      | off => exact own
      | hail => simp [own]
      | program => simp [own]

/-- Each slot of the list is issued once. -/
theorem Rack.slot_foldl_issue (st : Store) (k : SlotIx) {l : List SlotIx} (once : l.Nodup) (r : Rack) :
    (l.foldl (Rack.issue st) r).slot k = if k ∈ l then (Rack.issue st r k).slot k else r.slot k := by
  induction l generalizing r with
  | nil => rfl
  | cons j l ih =>
    obtain ⟨fresh, once⟩ := List.nodup_cons.mp once
    rw [List.foldl_cons, ih once]
    obtain ⟨-, -, -, quiesce, bench, -⟩ := r.rest_issue st j
    by_cases same : k = j
    · subst same
      rw [if_neg fresh, if_pos (List.mem_cons_self ..)]
    · have own := Rack.slot_issue_ne st r same
      rw [Rack.slot_issue_congr st own quiesce bench, own]
      simp [same]

theorem Rack.slot_foldl_issue_all (st : Store) (r : Rack) (k : SlotIx) :
    (allSlots.foldl (Rack.issue st) r).slot k = (Rack.issue st r k).slot k := by
  rw [Rack.slot_foldl_issue st k nodup_allSlots, if_pos (mem_allSlots k)]

/-! ## RACK WAKE (R116) -/

/-- With no held advance to take, a wake with an empty queue only issues. -/
theorem Rack.wake_issues (st : Store) (draw : Nat) {r : Rack} (empty : r.queue = [])
    (calm : ∀ k, (r.slot k).stay.heldAdvance = true → (r.slot k).caseState ≠ some .running) :
    r.wake st draw = allSlots.foldl (Rack.issue st) { r with quiesce := .active } := by
  have actions : Rack.wakeActions { r with quiesce := .active } = [.grantPass] := by
    rw [Rack.wakeActions, List.filter_eq_nil_iff.mpr fun k _ => ?_, List.map_nil]
    intro takes
    have takes : ((r.slot k).stay.heldAdvance && (r.slot k).caseState == some .running && !r.isGranted k) = true := takes
    simp only [Bool.and_eq_true, beq_iff_eq] at takes
    obtain ⟨⟨held, running⟩, -⟩ := takes
    exact calm k held running
  unfold Rack.wake
  dsimp only
  rw [actions]
  exact congrArg (allSlots.foldl (Rack.issue st)) (Rack.grantPass_nil st { r with quiesce := .active } empty)

theorem filter_allSlots_singleton {p : SlotIx → Bool} {k : SlotIx} (own : p k = true) (others : ∀ j, j ≠ k → p j = false) :
    allSlots.filter p = [k] := by
  have same : ∀ j ∈ allSlots, p j = (j == k) := fun j _ => by
    by_cases h : j = k
    · rw [h, own, beq_self_eq_true]
    · rw [others j h, beq_eq_false_iff_ne.mpr h]
  rw [List.filter_congr same, List.filter_beq, List.count_eq_one_of_mem nodup_allSlots (mem_allSlots k)]
  rfl

/-- With one held advance to take, a wake with an empty queue takes it and issues. -/
theorem Rack.wake_advances (st : Store) (draw : Nat) {r : Rack} {k : SlotIx} (empty : r.queue = [])
    (held : (r.slot k).stay.heldAdvance = true) (running : (r.slot k).caseState = some .running) (free : r.isGranted k = false)
    (calm : ∀ j, j ≠ k → (r.slot j).stay.heldAdvance = true → (r.slot j).caseState ≠ some .running)
    (queue : (Rack.takeOrHoldAdvance st { r with quiesce := .active } k).queue = []) :
    r.wake st draw =
      allSlots.foldl (Rack.issue st) (Rack.takeOrHoldAdvance st { r with quiesce := .active } k) := by
  have actions : Rack.wakeActions { r with quiesce := .active } = [.grantPass, .advance k] := by
    have only := filter_allSlots_singleton (p := Rack.wakeAdvance { r with quiesce := .active }) (k := k)
      (by
        change ((r.slot k).stay.heldAdvance && (r.slot k).caseState == some .running && !r.isGranted k) = true
        simp [held, running, free])
      (fun j other => by
        change ((r.slot j).stay.heldAdvance && (r.slot j).caseState == some .running && !r.isGranted j) = false
        cases heldJ : (r.slot j).stay.heldAdvance with
        | false => rfl
        | true => simp [calm j other heldJ])
    rw [Rack.wakeActions, only]
    rfl
  have order : ∀ a b : WakeAction, orderActions draw [a, b] = [a, b] ∨ orderActions draw [a, b] = [b, a] := fun a b => by
    change (if _ then _ else _) = _ ∨ (if _ then _ else _) = _
    split
    · exact .inl rfl
    · exact .inr rfl
  have pass := Rack.grantPass_nil st { r with quiesce := .active } empty
  have pass' := Rack.grantPass_nil st _ queue
  unfold Rack.wake
  dsimp only
  rw [actions]
  refine congrArg (allSlots.foldl (Rack.issue st)) ?_
  rcases order .grantPass (.advance k) with h | h
  · rw [h]
    change Rack.takeOrHoldAdvance st (Rack.grantPass st _) k = _
    rw [pass]
  · rw [h]
    exact pass'

theorem rackWake_active {s : State} (active : s.rack.quiesce = .active) : rackWake ⟨⟩ s = done s [0] := by
  rw [rackWake, if_pos active, quiesceReply, active]
  rfl

theorem rackWake_held {s : State} (held : s.rack.quiesce ≠ .active) : rackWake ⟨⟩ s =
    done { s with rack := s.rack.wake s.store s.freeCount, freeCount := s.freeCount + 1 } [0] := by
  obtain ⟨quiesce, -⟩ := Rack.sameHouse_wake s.store s.freeCount s.rack
  rw [rackWake, if_neg held, quiesceReply]
  dsimp only
  rw [quiesce]
  rfl

theorem State.after_done_wake (s : State) (r : Rack) (n : Nat) (body : List Byte) :
    State.after (done { s.completed with rack := r, freeCount := n } body) =
      (State.withRack { s with freeCount := n } r).answered .done body := rfl

/-- Settles O41. -/
theorem rackWakeReturnsToActive : Obligations.RackWakeReturnsToActive := by
  intro s h
  have taken := exec_taken h (c := .rackWake (some ⟨⟩)) rfl
  refine ⟨fun active => ?_, fun held => ⟨s.rack.wake s.store s.freeCount, ?_, ?_⟩⟩
  · rw [taken, rackWake_active (s := s.completed) active, State.after_done]
  · rw [taken, rackWake_held (s := s.completed) held, State.after_done_wake]
    rfl
  · obtain ⟨quiesce, budget, bench, flags⟩ := Rack.sameHouse_wake s.store s.freeCount s.rack
    refine ⟨quiesce, budget, bench, flags, fun empty calm k => ?_, fun k c p due running heldK free calm => ?_⟩
    · rw [Rack.wake_issues s.store s.freeCount empty calm, Rack.slot_foldl_issue_all]
    · have due' : Rack.advanceDue s.store { s.rack with quiesce := .active } k c p := due
      obtain ⟨own, only, -⟩ := Rack.takeOrHoldAdvance_due due' running rfl free
      have ⟨hc, _, _, _, _, _, empty, _⟩ := due
      obtain ⟨-, -, queue, -, -, -⟩ := only
      rw [Rack.wake_advances s.store s.freeCount empty (by rw [Slot.stay, hc]; exact heldK)
        (by rw [Slot.caseState_of_record hc, running]) free calm (queue.trans empty)]
      obtain ⟨l, run, after⟩ := Rack.slot_issue s.store (Rack.takeOrHoldAdvance s.store { s.rack with quiesce := .active } k) k
      rw [own] at after
      rw [Rack.advancedTo, Rack.slot_foldl_issue_all, after]
      exact ⟨by rw [← running], rfl, rfl, rfl, rfl, rfl, Watch.armedFrom_armBeat _ _⟩

/-! ## RACK RESTART (R26, R117, R130, R214, R230) -/

theorem Rack.slot_restartSlot_ne (r : Rack) {j k : SlotIx} (other : j ≠ k) : (r.restartSlot k).slot j = r.slot j := by
  unfold Rack.restartSlot
  dsimp only
  split
  all_goals simp [other]

/-- What the restart makes of a slot. -/
def Slot.restarted (a b : Slot) : Prop :=
  b.units = 0 ∧ b.line.sure = false ∧ b.latchClosed = a.latchClosed ∧ b.latchCount = a.latchCount ∧
  (∀ c, a.record = some c → c.state.inRun = true →
    b.record = some { c with state := .faulted .restart } ∧ b.stamp = a.stamp + 1 ∧ b.rail.state.isOn = false ∧
    b.rail.rest = none ∧ b.line.exchange = none ∧ b.seq.mode = .off) ∧
  (a.inRun = false → b.record = a.record ∧ b.stamp = a.stamp ∧ b.rail = a.rail)

theorem RailState.isOn_dropped (l : RailState) : (if l.isOn then RailState.off else l).isOn = false := by
  cases l <;> rfl

theorem Slot.inRun_of_record {sl : Slot} {c : CaseRecord} (hc : sl.record = some c) : sl.inRun = c.state.inRun := by
  unfold Slot.inRun
  rw [hc]

theorem Rack.slot_restartSlot (r : Rack) (k : SlotIx) : Slot.restarted (r.slot k) ((r.restartSlot k).slot k) := by
  unfold Rack.restartSlot
  dsimp only
  cases run : (r.slot k).inRun with
  | true =>
    rw [if_pos rfl, Rack.slot_modLine_same, Rack.slot_setUnits_same, Rack.slot_enter_same]
    refine ⟨rfl, rfl, by simp, by simp, fun c hc _ => ?_, fun h => ?_⟩
    · refine ⟨by simp [hc], by simp, ?_, by simp, by simp, by simp⟩
      simp [RailState.isOn_dropped]
    · rw [run] at h
      cases h
  | false =>
    rw [if_neg (by decide), Rack.slot_modLine_same, Rack.slot_setUnits_same]
    refine ⟨rfl, rfl, rfl, rfl, fun c hc inRun => ?_, fun _ => ⟨rfl, rfl, rfl⟩⟩
    rw [Slot.inRun_of_record hc, inRun] at run
    cases run

/-- The rack outside its slots in a restart: only slots enter the notice set. -/
theorem Rack.rest_restartSlot (r : Rack) (k : SlotIx) :
    (r.restartSlot k).queue = r.queue ∧ (r.restartSlot k).wide = r.wide ∧ Rack.sameHouse r (r.restartSlot k) ∧
      ∀ j, (r.restartSlot k).notices.hasSlot j = (r.notices.hasSlot j || j == k && (r.slot k).inRun) := by
  unfold Rack.restartSlot
  dsimp only
  cases run : (r.slot k).inRun with
  | true =>
    rw [if_pos rfl]
    exact ⟨by simp, by simp, ⟨by simp, by simp, by simp, by simp⟩, fun j => by simp⟩
  | false =>
    rw [if_neg (by decide)]
    exact ⟨rfl, rfl, ⟨rfl, rfl, rfl, rfl⟩, fun j => by simp⟩

/-- The slots of the runs that a restart ends enter the notice set. -/
theorem Rack.hasSlot_foldl_restartSlot (j : SlotIx) {l : List SlotIx} (once : l.Nodup) (r : Rack) :
    (l.foldl Rack.restartSlot r).notices.hasSlot j = (r.notices.hasSlot j || decide (j ∈ l) && (r.slot j).inRun) := by
  induction l generalizing r with
  | nil => simp
  | cons k l ih =>
    obtain ⟨fresh, once⟩ := List.nodup_cons.mp once
    obtain ⟨-, -, -, told⟩ := r.rest_restartSlot k
    rw [List.foldl_cons, ih once, told]
    by_cases same : j = k
    · subst same
      simp [fresh]
    · rw [Rack.slot_restartSlot_ne r same]
      simp [same, beq_eq_false_iff_ne.mpr same]

/-- What a restart makes of the bench port and of the controller of a slot granted to it. -/
theorem Rack.dropBench_spec (r : Rack) :
    r.dropBench.bench = { r.bench with state := .idle } ∧ r.dropBench.queue = r.queue ∧ r.dropBench.wide = r.wide ∧
      r.dropBench.quiesce = r.quiesce ∧ r.dropBench.budget = r.budget ∧ r.dropBench.notices.flags = r.notices.flags ∧
      ∀ k, (∃ l, r.dropBench.slot k = { r.slot k with line := l }) ∧
        r.dropBench.notices.hasSlot k = (r.notices.hasSlot k || r.isGranted k) := by
  unfold Rack.dropBench
  cases bench : r.bench.state with
  | idle => exact ⟨rfl, rfl, rfl, rfl, rfl, rfl, fun k => ⟨⟨_, rfl⟩, by simp [Rack.isGranted, bench]⟩⟩
  | pending i => exact ⟨rfl, rfl, rfl, rfl, rfl, rfl, fun k => ⟨⟨_, rfl⟩, by simp [Rack.isGranted, bench]⟩⟩
  | granted i =>
    refine ⟨rfl, rfl, rfl, rfl, rfl, rfl, fun k => ⟨?_, ?_⟩⟩
    · by_cases same : k = i
      · subst same
        exact ⟨_, (Rack.slot_noticeSlot ..).trans (Rack.slot_modLine_same ..)⟩
      · exact ⟨_, (Rack.slot_noticeSlot ..).trans (Rack.slot_modLine_ne _ _ same)⟩
    · simp [Rack.isGranted, bench, BEq.comm (a := k)]

/-- What of a restarted slot depends on the line of the slot before. -/
theorem Slot.restarted_of_line {a b : Slot} {l : Line} (h : Slot.restarted { a with line := l } b) : Slot.restarted a b := h

theorem rackRestart_after (s : State) : State.after (rackRestart ⟨⟩ s.completed) =
    State.answered { s with
      rack := s.rack.restart
      store := { s.store with staging := none }
      port := { s.port with rackState := .unset, attention := false } } .done [] := by
  rw [rackRestart, State.rack_completed, State.store_completed]
  generalize s.rack.restart = r
  rfl

/-- The rack of a restart before its flag enters the notice set. -/
def Rack.runsEnded (r : Rack) : Rack := allSlots.foldl Rack.restartSlot (Rack.dropBench { r with queue := [], quiesce := .active })

theorem Rack.restart_eq (r : Rack) : r.restart = r.runsEnded.noticeFlag .restarted := rfl

theorem Rack.rest_runsEnded (r : Rack) : r.runsEnded.queue = [] ∧ r.runsEnded.wide = r.wide ∧
    r.runsEnded.quiesce = .active ∧ r.runsEnded.budget = r.budget ∧ r.runsEnded.bench = { r.bench with state := .idle } ∧
    r.runsEnded.notices.flags = r.notices.flags := by
  obtain ⟨bench, queue, wide, quiesce, budget, flags, -⟩ := Rack.dropBench_spec { r with queue := [], quiesce := .active }
  have queue' := foldl_keeps Rack.restartSlot Rack.queue (fun r k => (r.rest_restartSlot k).1) allSlots
    (Rack.dropBench { r with queue := [], quiesce := .active })
  have wide' := foldl_keeps Rack.restartSlot Rack.wide (fun r k => (r.rest_restartSlot k).2.1) allSlots
    (Rack.dropBench { r with queue := [], quiesce := .active })
  obtain ⟨quiesce', budget', bench', flags'⟩ := Rack.sameHouse_foldl (fun r k => (r.rest_restartSlot k).2.2.1) allSlots
    (Rack.dropBench { r with queue := [], quiesce := .active })
  exact ⟨queue'.trans queue, wide'.trans wide, quiesce'.trans quiesce, budget'.trans budget, bench'.trans bench,
    flags'.trans flags⟩

theorem Rack.slot_runsEnded (r : Rack) (k : SlotIx) : Slot.restarted (r.slot k) (r.runsEnded.slot k) ∧
    r.runsEnded.notices.hasSlot k = (r.notices.hasSlot k || (r.slot k).inRun || r.isGranted k) := by
  obtain ⟨-, -, -, -, -, -, slots⟩ := Rack.dropBench_spec { r with queue := [], quiesce := .active }
  obtain ⟨⟨l, own⟩, told⟩ := slots k
  have restarted := foldl_slot Rack.restartSlot (fun r j k other => r.slot_restartSlot_ne other) k Slot.restarted
    (fun r => r.slot_restartSlot k) (Rack.dropBench { r with queue := [], quiesce := .active })
  rw [own] at restarted
  refine ⟨Slot.restarted_of_line restarted, ?_⟩
  have told' := Rack.hasSlot_foldl_restartSlot k nodup_allSlots (Rack.dropBench { r with queue := [], quiesce := .active })
  rw [told, own, decide_eq_true (mem_allSlots k), Bool.true_and] at told'
  rw [Bool.or_right_comm]
  exact told'

/-- Settles O16. -/
theorem rackRestartFaultsEveryRun : Obligations.RackRestartFaultsEveryRun := by
  intro s h
  obtain ⟨queue, wide, quiesce, budget, bench, flags⟩ := s.rack.rest_runsEnded
  refine ⟨s.rack.restart, (exec_taken h (c := .rackRestart (some ⟨⟩)) rfl).trans
    (congrArg Host.Outcome.next (rackRestart_after s)), ?_⟩
  have slots := s.rack.slot_runsEnded
  rw [Rack.restart_eq]
  generalize s.rack.runsEnded = ended at *
  refine ⟨queue, quiesce, bench, budget, wide, congrArg (· ||| 8) flags, fun k => ?_⟩
  obtain ⟨⟨units, sure, closed, count, run, out⟩, told⟩ := slots k
  exact ⟨units, sure, closed, count, told, run, out⟩

end Sys2Proof.Machine
end

section
/-! Evidence does not look at the rail, the line, the watch and the event counts of its slot, and leaves them (R39, R45). -/

namespace Sys2Proof.Machine

/-- A change of a slot outside what an evidence item writes: rail, line, watch, stay, trip count and sag count. -/
structure Dress where
  rail : Rail → Rail := id
  line : Line → Line := id
  watch : Watch → Watch := id
  stay : Stay → Stay := id
  trips : Nat → Nat := id
  sags : Nat → Nat := id

def Dress.record (D : Dress) (c : CaseRecord) : CaseRecord :=
  { c with stay := D.stay c.stay, tripCount := D.trips c.tripCount, sagCount := D.sags c.sagCount }

def Dress.slot (D : Dress) (sl : Slot) : Slot :=
  { sl with record := sl.record.map D.record, rail := D.rail sl.rail, line := D.line sl.line, watch := D.watch sl.watch }

def Rack.dress (r : Rack) (k : SlotIx) (D : Dress) : Rack := r.modSlot k D.slot

theorem Rack.slot_dress_same (r : Rack) (k : SlotIx) (D : Dress) : (r.dress k D).slot k = D.slot (r.slot k) :=
  Rack.slot_modSlot_same ..

theorem Rack.slot_dress_ne (r : Rack) {j k : SlotIx} (D : Dress) (other : j ≠ k) : (r.dress k D).slot j = r.slot j :=
  Rack.slot_modSlot_ne _ _ other

/-! ## Changes that commute -/

theorem Rack.modSlot_comm {r : Rack} {j k : SlotIx} {F G : Slot → Slot} (same : j = k → ∀ sl, F (G sl) = G (F sl)) :
    (r.modSlot k F).modSlot j G = (r.modSlot j G).modSlot k F := by
  by_cases h : j = k
  · subst h
    simp [Rack.modSlot, Rack.setSlot, Rack.slot, same rfl]
  · have later : (r.modSlot k F).modSlot j G = (r.setSlot k (F (r.slot k))).setSlot j (G (r.slot j)) := by
      rw [Rack.modSlot, Rack.slot_modSlot_ne _ _ h, Rack.modSlot]
    have sooner : (r.modSlot j G).modSlot k F = (r.setSlot j (G (r.slot j))).setSlot k (F (r.slot k)) := by
      rw [Rack.modSlot, Rack.slot_modSlot_ne _ _ (Ne.symm h), Rack.modSlot]
    have apart : k.val ≠ j.val := fun same => h (Fin.ext same).symm
    rw [later, sooner]
    exact congrArg (fun slots => { r with slots := slots }) (Vector.set_comm _ _ apart)

theorem Rack.dress_modCase (r : Rack) (j k : SlotIx) (D : Dress) {p : CaseRecord → CaseRecord}
    (apart : ∀ c, D.record (p c) = p (D.record c)) : (r.dress k D).modCase j p = (r.modCase j p).dress k D := by
  refine Rack.modSlot_comm fun _ sl => ?_
  cases h : sl.record <;> simp [Dress.slot, h, apart]

theorem Rack.dress_setList (r : Rack) (j k : SlotIx) (D : Dress) (l : List Suspect) :
    (r.dress k D).setList j l = (r.setList j l).dress k D := Rack.dress_modCase r j k D fun _ => rfl

theorem Rack.dress_stamp (r : Rack) (j k : SlotIx) (D : Dress) : (r.dress k D).stamp j = (r.stamp j).dress k D :=
  Rack.modSlot_comm fun _ _ => rfl

theorem Rack.dress_noticeConfirmed (r : Rack) (k : SlotIx) (D : Dress) (b : Option SuspectState) (a : SuspectState) :
    (r.dress k D).noticeConfirmed k b a = (r.noticeConfirmed k b a).dress k D := by
  unfold Rack.noticeConfirmed
  split
  · rfl
  · rfl

/-! ## What evidence reads -/

theorem Rack.record_dress (r : Rack) (j k : SlotIx) (D : Dress) :
    ((r.dress k D).slot j).record = if j = k then (r.slot j).record.map D.record else (r.slot j).record := by
  by_cases same : j = k
  · subst same
    rw [Rack.slot_dress_same, if_pos rfl]
    rfl
  · rw [Rack.slot_dress_ne r D same, if_neg same]

theorem Rack.suspects_dress (r : Rack) (j k : SlotIx) (D : Dress) :
    ((r.dress k D).slot j).suspects = (r.slot j).suspects := by
  by_cases same : j = k
  · subst same
    rw [Rack.slot_dress_same]
    unfold Slot.suspects Dress.slot
    cases (r.slot j).record <;> rfl
  · rw [Rack.slot_dress_ne r D same]

theorem Rack.suspectCount_dress (r : Rack) (j k : SlotIx) (D : Dress) :
    ((r.dress k D).slot j).suspectCount = (r.slot j).suspectCount := by
  rw [Slot.suspectCount_eq, Slot.suspectCount_eq, Rack.suspects_dress]

theorem Rack.freeEntries_dress (r : Rack) (k : SlotIx) (D : Dress) : (r.dress k D).freeEntries = r.freeEntries := by
  rw [Rack.freeEntries, Rack.freeEntries, Rack.usedEntries, Rack.usedEntries,
    sum_congr fun j => r.suspectCount_dress j k D]

theorem Rack.donor_dress (r : Rack) (j k : SlotIx) (D : Dress) : (r.dress k D).donor j = r.donor j := by
  unfold Rack.donor
  simp only [Rack.suspects_dress, Rack.suspectCount_dress]

theorem Rack.findEntry_dress (r : Rack) (j k : SlotIx) (D : Dress) :
    (r.dress k D).findEntry j = (r.findEntry j).map fun r' => r'.dress k D := by
  unfold Rack.findEntry
  rw [Rack.freeEntries_dress, Rack.suspects_dress, Rack.donor_dress]
  split
  · rfl
  · cases giveUpLowest (r.slot j).suspects with
    | some l => exact congrArg some (r.dress_setList j k D l)
    | none =>
      cases r.donor j with
      | none => rfl
      | some i =>
        dsimp only
        rw [Rack.suspects_dress]
        cases giveUpLowest (r.slot i).suspects with
        | none => rfl
        | some l =>
          dsimp only
          rw [Rack.dress_setList, Rack.dress_stamp]
          rfl

/-! ## A FAIL item -/

theorem Rack.createSuspect_dress (st : Store) (r : Rack) (k : SlotIx) (D : Dress) (n : Nat) (f : Fail) :
    (r.dress k D).createSuspect st k n f = (r.createSuspect st k n f).dress k D := by
  unfold Rack.createSuspect
  rw [Rack.record_dress, if_pos rfl]
  cases (r.slot k).record with
  | none => rfl
  | some c =>
    rw [Option.map_some]
    dsimp only
    rw [Rack.dress_setList, Rack.dress_modCase _ k k D (p := fun c => { c with nextSerial := bump Config.max16 c.nextSerial })
      fun _ => rfl, Rack.dress_noticeConfirmed]
    rfl

theorem Rack.takeFail_dress (st : Store) (r : Rack) (k : SlotIx) (D : Dress) (n : Nat) (f : Fail) :
    (r.dress k D).takeFail st k n f = (r.takeFail st k n f).map fun p => (p.1.dress k D, p.2) := by
  unfold Rack.takeFail
  rw [Rack.record_dress, if_pos rfl]
  cases (r.slot k).record with
  | none => rfl
  | some c =>
    rw [Option.map_some]
    dsimp only
    have model : caseModel st (D.record c) = caseModel st c := rfl
    have suspects : (D.record c).suspects = c.suspects := rfl
    rw [model, suspects]
    split
    · rfl
    · split
      · rw [Rack.dress_setList, Rack.dress_noticeConfirmed]
        rfl
      · rw [Rack.findEntry_dress]
        cases r.findEntry k with
        | none => rfl
        | some r' =>
          rw [Option.map_some, Option.map_some, Rack.createSuspect_dress]
          rfl

theorem Rack.unplaced_dress (r : Rack) (k : SlotIx) (D : Dress) : (r.dress k D).unplaced k = (r.unplaced k).dress k D := by
  unfold Rack.unplaced
  rw [Rack.record_dress, if_pos rfl]
  cases (r.slot k).record with
  | none => rfl
  | some c =>
    rw [Option.map_some]
    dsimp only
    rw [Rack.dress_modCase _ k k D (p := fun c => { c with unplaced := bump Config.max8 c.unplaced, poolFull := true })
      fun _ => rfl]
    change (if c.poolFull = true then _ else _) = _
    split
    · rfl
    · rfl

theorem Rack.failItem_dress (st : Store) (r : Rack) (k : SlotIx) (D : Dress) (n : Nat) (f : Fail) :
    (r.dress k D).failItem st k n f = (r.failItem st k n f).dress k D := by
  unfold Rack.failItem
  rw [Rack.takeFail_dress]
  cases r.takeFail st k n f with
  | none => exact r.unplaced_dress k D
  | some p =>
    obtain ⟨r', moved⟩ := p
    cases moved with
    | true => exact Rack.dress_stamp r' k k D
    | false => rfl

/-- A FAIL that a block hands over after it has changed its own fields is the FAIL handed before the change. -/
theorem Rack.failNow_dress (st : Store) (r : Rack) (k : SlotIx) (D : Dress)
    (apart : ∀ y, (D.stay y).driving = y.driving ∧ (D.stay y).position = y.position) (n : Nat) (y : Symptom) :
    (r.dress k D).failNow st k n y = (r.failNow st k n y).dress k D := by
  have phase : (r.dress k D).phase k = r.phase k := by
    unfold Rack.phase
    rw [Rack.record_dress, if_pos rfl]
    cases (r.slot k).record with
    | none => rfl
    | some c =>
      obtain ⟨driving, -⟩ := apart c.stay
      change (if c.state = .running ∧ r.quiesce = .active then some (D.stay c.stay).driving else none) = _
      rw [driving]
  have position : ((r.dress k D).slot k).stay.position = (r.slot k).stay.position := by
    unfold Slot.stay
    rw [Rack.record_dress, if_pos rfl]
    cases (r.slot k).record with
    | none => rfl
    | some c =>
      obtain ⟨-, position⟩ := apart c.stay
      exact position
  rw [Rack.failNow, Rack.failNow, phase, position, Rack.failItem_dress]

theorem Rack.passItem_dress (st : Store) (r : Rack) (k : SlotIx) (D : Dress) (n : Nat) :
    (r.dress k D).passItem st k n = (r.passItem st k n).dress k D := by
  unfold Rack.passItem
  rw [Rack.record_dress, if_pos rfl]
  cases (r.slot k).record with
  | none => rfl
  | some c =>
    rw [Option.map_some]
    dsimp only
    have model : caseModel st (D.record c) = caseModel st c := rfl
    have suspects : (D.record c).suspects = c.suspects := rfl
    rw [model, suspects]
    split
    · rfl
    · rw [Rack.dress_setList, Rack.dress_stamp]
      split
      · rfl
      · rfl

/-! ## The changes of the slot blocks, as one change of the slot -/

theorem Rack.modSlot_modSlot (r : Rack) (k : SlotIx) (F G : Slot → Slot) :
    (r.modSlot k F).modSlot k G = r.modSlot k (G ∘ F) := by
  simp [Rack.modSlot, Rack.setSlot, Rack.slot]

theorem Rack.modStay_dress (r : Rack) (k : SlotIx) (f : Stay → Stay) : r.modStay k f = r.dress k { stay := f } := by
  unfold Rack.modStay Rack.modCase Rack.dress
  congr 1

theorem Rack.modWatch_dress (r : Rack) (k : SlotIx) (f : Watch → Watch) : r.modWatch k f = r.dress k { watch := f } := by
  unfold Rack.modWatch Rack.dress
  congr 1
  funext sl
  cases h : sl.record <;> simp [Dress.slot, Dress.record, h]

theorem Rack.stageClean_dress (st : Store) (r : Rack) (k : SlotIx) (D : Dress) {c d : CaseRecord}
    (model : caseModel st d = caseModel st c) (rail : d.stay.railClean = c.stay.railClean)
    (hang : d.stay.hangClean = c.stay.hangClean) : (r.dress k D).stageClean st k d = (r.stageClean st k c).dress k D := by
  unfold Rack.stageClean
  dsimp only
  rw [model, rail, hang]
  cases c.stay.railClean
  all_goals cases c.stay.hangClean
  · rfl
  · exact Rack.passItem_dress ..
  · exact Rack.passItem_dress ..
  · rw [if_pos rfl, if_pos rfl, if_pos rfl, if_pos rfl, Rack.passItem_dress, Rack.passItem_dress]

end Sys2Proof.Machine
end

section
/-! The expiries that end or rest a run: allowances that run out, hangs and boot failures (R20, R21, R138, R140, R142, R147,
R196, R199). -/

namespace Sys2Proof.Machine

/-! ## The row of an expiry -/

theorem exec_expiry {s : State} {i : Instr} {k : SlotIx} {e : Expiry} (row : exec i s = .next (s.onExpiry k e))
    (due : s.rack.due s.store k e = true) : exec i s = .next (s.withRack (s.rack.expire s.store k e)) := by
  rw [row, State.onExpiry, Rack.takeExpiry, if_pos due]
  rfl

theorem Rack.model_of_record {st : Store} {r : Rack} {k : SlotIx} {c : CaseRecord} (hc : (r.slot k).record = some c) :
    r.model st k = caseModel st c := by
  unfold Rack.model
  rw [hc]

theorem CaseRecord.evidence_counts {c d : CaseRecord} (h : c.evidence d) :
    d.tripCount = c.tripCount ∧ d.sagCount = c.sagCount ∧ d.stress = c.stress ∧ d.strikes = c.strikes ∧
      d.boardId = c.boardId := by
  obtain ⟨form, -⟩ := h
  rw [form]
  exact ⟨rfl, rfl, rfl, rfl, rfl⟩

theorem CaseState.not_done {cs : CaseState} (run : cs = .powering ∨ cs = .running ∨ cs = .paused ∨ cs = .waiting)
    (e : EndCause) (v : Verdict) : cs ≠ .done e v := by
  rcases run with h | h | h | h
  all_goals rw [h]; exact CaseState.noConfusion

theorem CaseRecord.evidence_run {c d : CaseRecord} (h : c.evidence d)
    (run : c.state = .powering ∨ c.state = .running ∨ c.state = .paused ∨ c.state = .waiting) : d.state = c.state := by
  obtain ⟨-, state, -⟩ := h
  exact state (CaseState.not_done run)

/-! ## The end of a run by a fault -/

/-- What a fault leaves of its slot. -/
theorem Rack.faultCase_spec (st : Store) {r : Rack} {k : SlotIx} {c : CaseRecord} (hc : (r.slot k).record = some c)
    (cause : FaultCause) :
    ((r.faultCase st k cause).slot k).record = some { c with state := .faulted cause } ∧
    ((r.faultCase st k cause).slot k).rail = { (r.slot k).rail with
      state := if (r.slot k).rail.state.isOn then .off else (r.slot k).rail.state, rise := 0, sag := 0, rest := none } ∧
    ((r.faultCase st k cause).slot k).units = 0 ∧ (r.faultCase st k cause).queued k = false ∧
    ((r.faultCase st k cause).slot k).line.exchange = none ∧ ((r.faultCase st k cause).slot k).line.sure = false ∧
    ((r.faultCase st k cause).slot k).seq.mode = .off ∧ ((r.faultCase st k cause).slot k).watch.beat = none ∧
    ((r.faultCase st k cause).slot k).watch.boot = none ∧
    ((r.faultCase st k cause).slot k).stamp = (r.slot k).stamp + 1 ∧ (r.faultCase st k cause).notices.hasSlot k = true ∧
    (r.isPending k = true → (r.faultCase st k cause).bench.state = .granted k ∧
      ((r.faultCase st k cause).slot k).line.state = .passed) := by
  have mode : ((r.endRun st k (.faulted cause)).slot k).seq.mode ≠ .program := by
    rw [(Rack.endRun_spec st r k (.faulted cause)).1]
    simp
  have told := Rack.hasSlot_proceed_still st _ k k (Rack.hasSlot_endRun st r k (.faulted cause)) (.inr (.inl mode))
  obtain ⟨⟨l, exchange, sure, after⟩, -, -, -, unqueued, -⟩ := Rack.endRun_proceed_spec st r k (.faulted cause)
  have given := Rack.endRun_proceed_pending st r k (.faulted cause)
  unfold Rack.faultCase
  refine ⟨by rw [after, hc]; rfl, by rw [after]; exact Rack.rail_dropRun r k, by rw [after], unqueued, by rw [after]; exact exchange,
    by rw [after]; exact sure, by rw [after]; exact Rack.mode_dropRun r k, ?_, ?_, by rw [after], told, given⟩
  all_goals rw [after]; simp

/-! ## Trips (R20, R142) -/

/-- The cut of a trip: the rail is TRIPPED, the pointer not sure, the trip counted. -/
def tripDress : Dress where
  rail l := { l with state := .tripped, rise := 0, sag := 0 }
  line l := { l with sure := false }
  trips := bump Config.max8

theorem Rack.trip_cut (r : Rack) (k : SlotIx) :
    (((r.modRail k fun l => { l with state := .tripped, rise := 0, sag := 0 }).modLine k fun l =>
      { l with sure := false }).modCase k fun c => { c with tripCount := bump Config.max8 c.tripCount }) =
      r.dress k tripDress := by
  unfold Rack.modRail Rack.modLine Rack.modCase Rack.dress
  rw [Rack.modSlot_modSlot, Rack.modSlot_modSlot]
  rfl

/-- The fail of the cut rail: the judged rack, cut, its stay no longer rail-clean. -/
def tripMarks : Dress := { tripDress with stay := fun y => { y with railClean := false } }

theorem Rack.dress_modStay (r : Rack) (k : SlotIx) (D : Dress) (f : Stay → Stay) :
    (r.dress k D).modStay k f = r.dress k { D with stay := f ∘ D.stay } := by
  rw [Rack.modStay_dress]
  unfold Rack.dress
  rw [Rack.modSlot_modSlot]
  congr 1
  funext sl
  cases h : sl.record <;> simp [Dress.slot, Dress.record, h]

theorem Rack.samePool_dress (r : Rack) (k : SlotIx) (D : Dress) : Rack.samePool r (r.dress k D) :=
  Rack.samePool_of_slot k (fun _ other => by rw [Rack.slot_dress_ne r D other]) D.record
    (by rw [Rack.slot_dress_same]; rfl) fun _ => ⟨rfl, rfl, rfl, rfl⟩

section Trip
variable {st : Store} {r : Rack} {k : SlotIx} {c : CaseRecord} (hc : (r.slot k).record = some c)
  (run : c.state = .powering ∨ c.state = .running ∨ c.state = .paused ∨ c.state = .waiting) (y : Symptom)
include hc run

/-- A trip of a case in a run: the FAIL of the moment, the cut and the fault. -/
theorem Rack.trip_eq : r.trip st k y =
    ((r.failNow st k (caseModel st c).header.rail y).dress k tripMarks).faultCase st k .rail := by
  have evidence := r.evidence_failNow st k (caseModel st c).header.rail y
  obtain ⟨d, hd, same⟩ := Rack.evidence_record evidence hc
  have state := CaseRecord.evidence_run same run
  have marked : (r.dress k tripDress).railFail st k y =
      (r.failNow st k (caseModel st c).header.rail y).dress k tripMarks := by
    unfold Rack.railFail
    rw [Rack.record_dress, if_pos rfl, hc, Option.map_some]
    dsimp only
    rw [Rack.failNow_dress st r k tripDress fun _ => ⟨rfl, rfl⟩, Rack.dress_modStay]
    rfl
  have takes : (((r.failNow st k (caseModel st c).header.rail y).dress k tripMarks).slot k).takesTrip = true := by
    have marks : (((r.failNow st k (caseModel st c).header.rail y).dress k tripMarks).slot k).caseState = some c.state := by
      rw [Slot.caseState_of_record (c := tripMarks.record d) (by rw [Rack.record_dress, if_pos rfl, hd]; rfl)]
      exact congrArg some state
    unfold Slot.takesTrip
    rw [marks]
    rcases run with h | h | h | h
    all_goals rw [h]
  unfold Rack.trip
  dsimp only
  rw [Rack.trip_cut, marked, if_pos takes]

/-- What a trip makes of its case, rail and rack, against the rack that has judged its FAIL. -/
theorem Rack.trip_spec {judged : Rack} (judges : judged = r.failNow st k (caseModel st c).header.rail y) :
    ∃ c' : CaseRecord, ((r.trip st k y).slot k).record = some c' ∧
      c'.state = .faulted .rail ∧ c'.tripCount = min (c.tripCount + 1) 255 ∧ c'.stay.railClean = false ∧
      c'.stay.position = c.stay.position ∧ c'.stay.elapsed = c.stay.elapsed ∧ c'.stay.draining = c.stay.draining ∧
      c'.sagCount = c.sagCount ∧ c'.stress = c.stress ∧
      ((r.trip st k y).slot k).rail.state = .tripped ∧ ((r.trip st k y).slot k).rail.rise = 0 ∧
      ((r.trip st k y).slot k).rail.sag = 0 ∧
      ((r.trip st k y).slot k).units = 0 ∧ (r.trip st k y).queued k = false ∧
      ((r.trip st k y).slot k).line.exchange = none ∧ ((r.trip st k y).slot k).line.sure = false ∧
      ((r.trip st k y).slot k).seq.mode = .off ∧ ((r.trip st k y).slot k).watch.beat = none ∧
      ((r.trip st k y).slot k).watch.boot = none ∧
      Rack.samePool judged (r.trip st k y) ∧ ((r.trip st k y).slot k).stamp = (judged.slot k).stamp + 1 ∧
      (r.trip st k y).notices.hasSlot k = true ∧
      (r.isPending k = true → (r.trip st k y).bench.state = .granted k ∧
        ((r.trip st k y).slot k).line.state = .passed) := by
  subst judges
  have evidence := r.evidence_failNow st k (caseModel st c).header.rail y
  obtain ⟨d, hd, same⟩ := Rack.evidence_record evidence hc
  obtain ⟨trips, sags, stress, -, -⟩ := CaseRecord.evidence_counts same
  obtain ⟨-, -, -, stay⟩ := CaseRecord.evidence_keeps same
  have marked : (((r.failNow st k (caseModel st c).header.rail y).dress k tripMarks).slot k).record =
      some (tripMarks.record d) := by
    rw [Rack.record_dress, if_pos rfl, hd]
    rfl
  obtain ⟨record, rail, units, queued, exchange, sure, mode, beat, boot, stamp, told, given⟩ :=
    Rack.faultCase_spec st marked .rail
  have pool := Rack.samePool_trans (Rack.samePool_dress (r.failNow st k (caseModel st c).header.rail y) k tripMarks)
    (Rack.samePool_faultCase st _ k .rail)
  have pending : r.isPending k = ((r.failNow st k (caseModel st c).header.rail y).dress k tripMarks).isPending k := by
    obtain ⟨-, -, -, -, bench, -, -⟩ := evidence
    exact congrArg (fun b : Bench => match b.state with | .pending j => j == k | .idle | .granted _ => false) bench.symm
  rw [Rack.slot_dress_same] at rail stamp
  rw [Rack.trip_eq hc run, pending]
  refine ⟨_, record, rfl, congrArg (bump 255) trips, rfl, (congrArg Stay.position stay :),
    (congrArg Stay.elapsed stay :), (congrArg Stay.draining stay :), sags, stress, ?_, ?_, ?_, units, queued, exchange, sure, mode, beat, boot, pool, stamp, told,
    given⟩
  all_goals rw [rail]
  rfl

end Trip

/-- Settles O46. -/
theorem anAllowanceThatRunsOutTrips : Obligations.AnAllowanceThatRunsOutTrips := by
  intro s k c i judged hc run expired
  have model := Rack.model_of_record (st := s.store) hc
  rcases expired with ⟨rfl, rising, allowance, judges⟩ | ⟨rfl, sagging, allowance, judges⟩
  · have due : s.rack.due s.store k .rise = true := by
      simp [Rack.due, Rack.riseDue, rising, model, allowance]
    obtain ⟨c', spec⟩ := Rack.trip_spec hc run .norise judges
    exact ⟨_, c', exec_expiry rfl due, spec⟩
  · have due : s.rack.due s.store k .sag = true := by
      simp [Rack.due, Rack.sagDue, sagging, model, allowance]
    obtain ⟨c', spec⟩ := Rack.trip_spec hc run .trip judges
    exact ⟨_, c', exec_expiry rfl due, spec⟩

/-! ## Hangs and boot failures (R21, R22, R196, R199) -/

/-- With the sequencer OFF and at a boundary, what follows gives a pending HOLD. -/
theorem Rack.proceed_off_pending (st : Store) {r : Rack} {k : SlotIx} (off : (r.slot k).seq.mode = .off)
    (boundary : (r.slot k).atBoundary = true) (pending : r.isPending k = true) :
    (r.proceed st k).bench.state = .granted k ∧ ((r.proceed st k).slot k).line.state = .passed := by
  unfold Rack.proceed
  rw [Rack.takeOrHoldAdvance_still st r k (.inr (.inl (by simp [off]))), Rack.grantPending_at r pending boundary,
    Rack.issue_off st _ k (by simp [Rack.benchGrant, off])]
  obtain ⟨-, -, -, bench, -, -⟩ := (r.benchGrant k).rest_checkQuiesced
  exact ⟨by rw [bench]; rfl, by simp [Rack.benchGrant]⟩

theorem Rack.slot_restEntry (r : Rack) (j k : SlotIx) : (r.restEntry k).slot j = r.slot j := rfl

/-- What RESTING leaves of its slot, before what follows. -/
theorem Rack.slot_enterRest (r : Rack) (k : SlotIx) : (r.enterRest k).slot k = { (r.dropRun k).slot k with
    record := (r.slot k).record.map fun c => { c with state := .resting }
    stamp := (r.slot k).stamp + 1
    rail := { ((r.dropRun k).slot k).rail with rest := some 0 } } := by
  rw [Rack.enterRest, Rack.slot_enter_same, Rack.slot_restEntry]
  simp [Rack.dropRun, Rack.abortOff, Rack.railOff]

theorem Rack.rest_enterRest (r : Rack) (k : SlotIx) :
    (r.enterRest k).bench = r.bench ∧ (r.enterRest k).notices.hasSlot k = true ∧
      (∀ j, j ≠ k → (r.enterRest k).slot j = r.slot j) := by
  refine ⟨by simp [Rack.enterRest, Rack.restEntry], by simp [Rack.enterRest], fun j other => ?_⟩
  rw [Rack.enterRest, Rack.slot_enter_ne _ _ other, Rack.slot_restEntry]
  simp [other]

theorem Rack.samePool_enterRest (r : Rack) (k : SlotIx) : Rack.samePool r (r.enterRest k) := by
  obtain ⟨-, -, others⟩ := r.rest_enterRest k
  exact Rack.samePool_of_slot k (fun j other => by rw [others j other]) (fun c => { c with state := .resting })
    (by rw [Rack.slot_enterRest]) fun _ => ⟨rfl, rfl, rfl, rfl⟩

/-- What a hang or boot failure leaves of its slot, whatever becomes of the case. -/
def Rack.hung (r r' : Rack) (k : SlotIx) : Prop :=
  (r'.slot k).line.exchange = none ∧ (r'.slot k).seq.mode = .off ∧ (r'.slot k).rail.state.isOn = false ∧
    (r'.slot k).watch.beat = none ∧ (r'.slot k).watch.boot = none ∧ Rack.samePool r r' ∧
    (r'.slot k).stamp = (r.slot k).stamp + 1 ∧ r'.notices.hasSlot k = true ∧
    (r.isPending k = true → r'.bench.state = .granted k ∧ (r'.slot k).line.state = .passed)

theorem Rack.isOn_dropRun (r : Rack) (k : SlotIx) : ((r.dropRun k).slot k).rail.state.isOn = false := by
  rw [Rack.rail_dropRun]
  exact RailState.isOn_dropped _

/-- A case that rests. -/
theorem Rack.enterRest_proceed_spec (st : Store) {r : Rack} {k : SlotIx} {c : CaseRecord} (hc : (r.slot k).record = some c) :
    Rack.hung r ((r.enterRest k).proceed st k) k ∧
      (((r.enterRest k).proceed st k).slot k).record = some { c with state := .resting } ∧
      (((r.enterRest k).proceed st k).slot k).rail.rest = some 0 ∧
      (((r.enterRest k).proceed st k).slot k).units = (r.slot k).units := by
  have own := r.slot_enterRest k
  obtain ⟨bench, told, -⟩ := r.rest_enterRest k
  have mode : ((r.enterRest k).slot k).seq.mode = .off := by rw [own]; exact r.mode_dropRun k
  have still := Or.inr (a := ((r.enterRest k).slot k).stay.draining = false)
    (Or.inl (b := ((r.enterRest k).slot k).atBoundary = false)
      (show ((r.enterRest k).slot k).seq.mode ≠ .program by rw [mode]; decide))
  obtain ⟨-, -, -, ⟨l, run, after⟩, -⟩ := Rack.proceed_still st (r.enterRest k) k still
  obtain ⟨seq, exchange, -⟩ := Rack.proceed_off st (r.enterRest k) k mode
  have boundary : ((r.enterRest k).slot k).atBoundary = true := by rw [own]; simp [Slot.atBoundary]
  have given := Rack.proceed_off_pending st mode boundary
  have pending : (r.enterRest k).isPending k = r.isPending k := by simp only [Rack.isPending, bench]
  rw [pending] at given
  refine ⟨⟨?_, ?_, ?_, ?_, ?_, Rack.samePool_trans (r.samePool_enterRest k) (Rack.samePool_proceed_still st _ k still), ?_,
    Rack.hasSlot_proceed_still st _ k k told still, given⟩, ?_, ?_, ?_⟩
  · rw [exchange, own]
    exact r.exchange_dropRun k
  · rw [seq, mode]
  all_goals rw [after, own]
  · exact r.isOn_dropRun k
  · simp
  · simp
  · rw [hc]
    rfl
  · exact r.units_dropRun k

/-- A case that faults. -/
theorem Rack.faultCase_hung (st : Store) {r : Rack} {k : SlotIx} {c : CaseRecord} (hc : (r.slot k).record = some c)
    (cause : FaultCause) : Rack.hung r (r.faultCase st k cause) k := by
  obtain ⟨-, rail, -, -, exchange, -, mode, beat, boot, stamp, told, given⟩ := Rack.faultCase_spec st hc cause
  refine ⟨exchange, mode, ?_, beat, boot, Rack.samePool_faultCase st r k cause, stamp, told, given⟩
  rw [rail]
  exact RailState.isOn_dropped _

/-- The states in which a hang or a boot failure is taken. -/
theorem Slot.takesHang_of {sl : Slot} {c : CaseRecord} (hc : sl.record = some c)
    (run : c.state = .powering ∨ c.state = .running ∨ c.state = .paused ∨ c.state = .waiting ∧ sl.rail.state.isOn = true) :
    sl.takesHang = true := by
  unfold Slot.takesHang
  rw [Slot.caseState_of_record hc]
  rcases run with h | h | h | ⟨h, on⟩
  · rw [h]
  · rw [h]
  · rw [h]
  · rw [h]
    exact on

section Hang
variable {st : Store} {r : Rack} {k : SlotIx} {c : CaseRecord} (hc : (r.slot k).record = some c)
  (takes : (r.slot k).takesHang = true)
include hc takes

theorem Rack.hangReport_rests (within : c.strikes + 1 ≤ (caseModel st c).header.strikeLimit) :
    r.hangReport st k = ((r.modCase k fun c => { c with strikes := c.strikes + 1 }).enterRest k).proceed st k := by
  unfold Rack.hangReport
  rw [hc]
  dsimp only
  rw [if_pos takes, if_pos within]

theorem Rack.hangReport_faults (beyond : (caseModel st c).header.strikeLimit < c.strikes + 1) :
    r.hangReport st k = (r.modCase k fun c => { c with strikes := bump 15 c.strikes }).faultCase st k .hang := by
  unfold Rack.hangReport
  rw [hc]
  dsimp only
  rw [if_pos takes, if_neg (by omega)]

end Hang

/-- The failure of a Heartbeat Watch: its counter disarmed and the stay no longer hang-clean. -/
def hangMarks (w : Watch → Watch) : Dress where
  watch := w
  stay y := { y with hangClean := false }

theorem Rack.hangFail_eq {st : Store} {r : Rack} {k : SlotIx} {c : CaseRecord} (hc : (r.slot k).record = some c)
    (w : Watch → Watch) (y : Symptom) : (r.modWatch k w).hangFail st k y =
      (r.failNow st k (caseModel st c).header.hang y).dress k (hangMarks w) := by
  unfold Rack.hangFail
  rw [Rack.modWatch_dress, Rack.record_dress, if_pos rfl, hc, Option.map_some]
  dsimp only
  rw [Rack.failNow_dress st r k { watch := w } fun _ => ⟨rfl, rfl⟩, Rack.dress_modStay]
  rfl

/-- A rack that differs from the judged one in what evidence does not write, with a new strike count. -/
theorem Rack.hung_of_marks {r r' judged : Rack} {k : SlotIx} {D : Dress} {f : CaseRecord → CaseRecord}
    (evidence : r.evidence judged) (keep : ∀ c, (f c).suspects = c.suspects ∧ (f c).nextSerial = c.nextSerial ∧
      (f c).unplaced = c.unplaced ∧ (f c).poolFull = c.poolFull)
    (h : Rack.hung ((judged.dress k D).modCase k f) r' k) :
    (r'.slot k).line.exchange = none ∧ (r'.slot k).seq.mode = .off ∧ (r'.slot k).rail.state.isOn = false ∧
    (r'.slot k).watch.beat = none ∧ (r'.slot k).watch.boot = none ∧ Rack.samePool judged r' ∧
    (r'.slot k).stamp = (judged.slot k).stamp + 1 ∧ r'.notices.hasSlot k = true ∧
    (r.isPending k = true → r'.bench.state = .granted k ∧ (r'.slot k).line.state = .passed) := by
  obtain ⟨exchange, mode, off, beat, boot, pool, stamp, told, given⟩ := h
  obtain ⟨-, -, -, -, bench, -, -⟩ := evidence
  have pending : ((judged.dress k D).modCase k f).isPending k = r.isPending k :=
    congrArg (fun b : Bench => match b.state with | .pending j => j == k | .idle | .granted _ => false) bench
  have pool' : Rack.samePool (judged.dress k D) ((judged.dress k D).modCase k f) :=
    Rack.samePool_of_slot k (fun j other => by rw [Rack.slot_modCase_ne _ _ other]) f (by rw [Rack.slot_modCase_same]) keep
  rw [Rack.slot_modCase_same, Rack.slot_dress_same] at stamp
  rw [pending] at given
  exact ⟨exchange, mode, off, beat, boot, Rack.samePool_trans (judged.samePool_dress k D) (Rack.samePool_trans pool' pool), stamp,
    told, given⟩

/-- What a hang or boot failure makes of its case, against the rack that has judged its FAIL. -/
theorem Rack.hang_spec {st : Store} {r judged : Rack} {k : SlotIx} {c : CaseRecord} (hc : (r.slot k).record = some c)
    (run : c.state = .powering ∨ c.state = .running ∨ c.state = .paused ∨
      c.state = .waiting ∧ (r.slot k).rail.state.isOn = true) (w : Watch → Watch) (y : Symptom)
    (judges : judged = r.failNow st k (caseModel st c).header.hang y) :
    ∃ (r' : Rack) (c' : CaseRecord), ((r.modWatch k w).hangFail st k y).hangReport st k = r' ∧
      (r'.slot k).record = some c' ∧
      c'.stay.hangClean = false ∧ c'.stay.position = c.stay.position ∧ c'.stay.draining = c.stay.draining ∧
      (r'.slot k).line.exchange = none ∧ (r'.slot k).seq.mode = .off ∧ (r'.slot k).rail.state.isOn = false ∧
      (r'.slot k).watch.beat = none ∧ (r'.slot k).watch.boot = none ∧
      Rack.samePool judged r' ∧ (r'.slot k).stamp = (judged.slot k).stamp + 1 ∧ r'.notices.hasSlot k = true ∧
      (r.isPending k = true → r'.bench.state = .granted k ∧ (r'.slot k).line.state = .passed) ∧
      (c.strikes + 1 ≤ (caseModel st c).header.strikeLimit →
        c'.state = .resting ∧ c'.strikes = c.strikes + 1 ∧ (r'.slot k).rail.rest = some 0 ∧
        (r'.slot k).units = (r.slot k).units) ∧
      ((caseModel st c).header.strikeLimit < c.strikes + 1 →
        c'.state = .faulted .hang ∧ c'.strikes = min (c.strikes + 1) 15 ∧ (r'.slot k).units = 0 ∧
        r'.queued k = false) := by
  have evidence := r.evidence_failNow st k (caseModel st c).header.hang y
  rw [← judges] at evidence
  obtain ⟨d, hd, same⟩ := Rack.evidence_record evidence hc
  obtain ⟨-, -, -, strikes, -⟩ := CaseRecord.evidence_counts same
  obtain ⟨sameModel, -, -, stay⟩ := CaseRecord.evidence_keeps same
  have state := CaseRecord.evidence_run same (run.imp_right fun h => h.imp_right fun h => h.imp_right And.left)
  have own := judged.slot_dress_same k (hangMarks w)
  have hd' : ((judged.dress k (hangMarks w)).slot k).record = some ((hangMarks w).record d) := by
    rw [own]
    exact congrArg (Option.map (hangMarks w).record) hd
  have units : ((judged.dress k (hangMarks w)).slot k).units = (r.slot k).units := by
    rw [own, Rack.evidence_slot evidence k]
    rfl
  have takes : ((judged.dress k (hangMarks w)).slot k).takesHang = true := by
    refine Slot.takesHang_of hd' ?_
    rw [own, Rack.evidence_slot evidence k]
    change d.state = _ ∨ d.state = _ ∨ d.state = _ ∨ d.state = _ ∧ _
    rwa [state]
  have limit : (caseModel st ((hangMarks w).record d)).header.strikeLimit = (caseModel st c).header.strikeLimit := by
    rw [caseModel, caseModel, ← sameModel]
    rfl
  have counted : ((hangMarks w).record d).strikes = c.strikes := strikes
  have modified : ∀ f : CaseRecord → CaseRecord, (((judged.dress k (hangMarks w)).modCase k f).slot k).record =
      some (f ((hangMarks w).record d)) := fun f => by
    rw [Rack.slot_modCase_same, hd']
    rfl
  rw [Rack.hangFail_eq hc, ← judges]
  by_cases within : c.strikes + 1 ≤ (caseModel st c).header.strikeLimit
  · obtain ⟨hung, record, rest, kept⟩ := Rack.enterRest_proceed_spec st
      (modified fun c => { c with strikes := c.strikes + 1 })
    obtain ⟨exchange, mode, off, beat, boot, pool, stamp, told, given⟩ := Rack.hung_of_marks
      (f := fun c => { c with strikes := c.strikes + 1 }) evidence
      (fun _ => ⟨rfl, rfl, rfl, rfl⟩) hung
    rw [Rack.slot_modCase_same] at kept
    rw [Rack.hangReport_rests hd' takes (by rw [limit, counted]; exact within)]
    exact ⟨_, _, rfl, record, rfl, (congrArg Stay.position stay :), (congrArg Stay.draining stay :), exchange, mode, off, beat,
      boot, pool, stamp, told, given, fun _ => ⟨rfl, congrArg (· + 1) counted, rest, kept.trans units⟩,
      fun beyond => by omega⟩
  · have beyond : (caseModel st c).header.strikeLimit < c.strikes + 1 := by omega
    have hung := Rack.faultCase_hung st (modified fun c => { c with strikes := bump 15 c.strikes }) .hang
    obtain ⟨record, -, none, queued, -⟩ := Rack.faultCase_spec st (modified fun c => { c with strikes := bump 15 c.strikes }) .hang
    obtain ⟨exchange, mode, off, beat, boot, pool, stamp, told, given⟩ := Rack.hung_of_marks
      (f := fun c => { c with strikes := bump 15 c.strikes }) evidence
      (fun _ => ⟨rfl, rfl, rfl, rfl⟩) hung
    rw [Rack.hangReport_faults hd' takes (by rw [limit, counted]; exact beyond)]
    exact ⟨_, _, rfl, record, rfl, (congrArg Stay.position stay :), (congrArg Stay.draining stay :), exchange, mode, off, beat,
      boot, pool, stamp, told, given, fun h => absurd h within,
      fun _ => ⟨rfl, congrArg (bump 15) counted, none, queued⟩⟩

/-- Settles O47. -/
theorem hangsAndBootFailuresRestOrFault : Obligations.HangsAndBootFailuresRestOrFault := by
  intro s k c i judged hc failed
  have model := Rack.model_of_record (st := s.store) hc
  rcases failed with ⟨rfl, run, beat, judges⟩ | ⟨rfl, powering, boot, judges⟩
  · have due : s.rack.due s.store k .hang = true := by
      simp [Rack.due, Rack.hangDue, beat]
    obtain ⟨r', c', fired, spec⟩ := Rack.hang_spec hc (.inr run) (fun w => { w with beat := none }) .hang judges
    exact ⟨r', c', (exec_expiry rfl due).trans (congrArg (fun r => Host.Outcome.next (s.withRack r)) fired), spec⟩
  · have due : s.rack.due s.store k .boot = true := by
      simp [Rack.due, Rack.bootDue, boot, model]
    obtain ⟨r', c', fired, spec⟩ := Rack.hang_spec hc (.inl powering) (fun w => { w with boot := none }) .noboot judges
    exact ⟨r', c', (exec_expiry rfl due).trans (congrArg (fun r => Host.Outcome.next (s.withRack r)) fired), spec⟩

end Sys2Proof.Machine
end

section
/-! The stage match, the heater switch, the rest end and the tick wait end (R23, R96, R100 to R106, R147, R189, R201). -/

namespace Sys2Proof.Machine

/-! ## The heater switch and the rest end -/

/-- Settles O45. -/
theorem expiriesSwitchHeatersAndEndRests : Obligations.ExpiriesSwitchHeatersAndEndRests := by
  refine ⟨fun s k c hc period reached => ?_, fun s k c hc resting rested => ?_⟩
  · have due : s.rack.due s.store k .heaterSwitch = true := by
      simp [Rack.due, Rack.switchDue, hc, period, reached]
    refine ⟨_, exec_expiry rfl due, ?_, s.rack.onlySlot_modStay k _, rfl⟩
    refine (s.rack.slot_modStay_same k _).trans ?_
    rw [hc, Option.map_some]
    cases c.stay.driving <;> rfl
  · have model := Rack.model_of_record (st := s.store) hc
    have due : s.rack.due s.store k .rest = true := by
      simp [Rack.due, Rack.restDue, rested, model, Slot.caseState_of_record hc, resting]
    have own := s.rack.slot_modRail_same k fun l => { l with rest := none }
    have powered := Rack.slot_enterPowering s.store (s.rack.modRail k fun l => { l with rest := none }) k c (by rw [own, hc])
    obtain ⟨-, -, -, -, -, notices⟩ := Rack.rest_enterPowering s.store (s.rack.modRail k fun l => { l with rest := none }) k
    refine ⟨_, exec_expiry rfl due, ?_, Rack.onlySlot_trans (s.rack.onlySlot_modRail k _)
      (Rack.onlySlot_enterPowering s.store _ k), notices⟩
    rw [own] at powered
    exact powered

/-! ## The tick wait -/

/-- In HAIL mode with nothing in the way the next HAIL is issued. -/
theorem Rack.issue_hail (st : Store) {r : Rack} {k : SlotIx} {c : CaseRecord} (hc : (r.slot k).record = some c)
    (hail : (r.slot k).seq.mode = .hail) (wait : (r.slot k).seq.tickWait = false) (none : (r.slot k).line.exchange = none)
    (idle : (r.slot k).line.state = .idle) (calm : c.state ≠ .paused) (active : r.quiesce = .active)
    (unpended : r.isPending k = false) (free : r.isGranted k = false) : Rack.issue st r k = r.modLine k Line.issueHail := by
  have may : mayIssue st r k c = true := by
    simp [mayIssue, Rack.stopReasons, none, idle, hail, wait, active, unpended, free, Slot.caseState_of_record hc, calm]
  unfold Rack.issue
  rw [hc]
  dsimp only
  rw [if_pos may, hail]

/-- Settles O48. -/
theorem theTickWaitEndsInAHail : Obligations.TheTickWaitEndsInAHail := by
  intro s k c hc powering hail wait seen none line active bench
  have due : s.rack.due s.store k .tickWait = true := by simp [Rack.due, Rack.waitDue, wait, seen]
  have own := s.rack.slot_modSeq_same k fun q => { q with tickWait := false, waitTickSeen := false }
  have fired : s.rack.fireWait s.store k =
      (s.rack.modSeq k fun q => { q with tickWait := false, waitTickSeen := false }).modLine k Line.issueHail := by
    unfold Rack.fireWait
    rw [Rack.proceed_issues s.store (by rw [Rack.quiesce_modSeq, active]; decide)
      (Rack.unpended_of_idle (by rw [Rack.bench_modSeq, bench])) (.inr (.inl (by rw [own, hail]; decide)))]
    exact Rack.issue_hail s.store (by rw [own, hc]) (by rw [own, hail]) (by rw [own]) (by rw [own, none]) (by rw [own, line])
      (by rw [powering]; decide) active (by simp [Rack.isPending, bench]) (by simp [Rack.isGranted, bench])
  refine ⟨_, (exec_expiry rfl due).trans (congrArg (fun r => Host.Outcome.next (s.withRack r)) fired), ?_⟩
  rw [Rack.slot_modLine_same, own]
  exact ⟨rfl, rfl, rfl, hc, rfl, Rack.onlySlot_trans (s.rack.onlySlot_modSeq k _) (Rack.onlySlot_modLine _ k _), rfl⟩

/-! ## The stage match -/

theorem Model.nextPosition_ne {m : Model} {p q : Position} (next : m.nextPosition p = some q) : q ≠ p := by
  unfold Model.nextPosition at next
  rintro rfl
  split at next
  · have := congrArg Position.stage (Option.some.inj next)
    simp at this
  · split at next
    · have := congrArg Position.cycle (Option.some.inj next)
      simp at this
    · cases next

/-- The rack of a stage match before what follows. -/
def Rack.drains (r : Rack) (k : SlotIx) : Rack := r.modStay k fun y => { y with draining := true }

theorem Rack.slot_drains {r : Rack} {k : SlotIx} {c : CaseRecord} (hc : (r.slot k).record = some c) :
    (r.drains k).slot k = { r.slot k with record := some { c with stay := { c.stay with draining := true } } } := by
  rw [Rack.drains, Rack.slot_modStay_same, hc]
  rfl

/-- A match that begins no new stay. -/
theorem Rack.fireMatch_stays {st : Store} {r r' : Rack} {k : SlotIx} (follows : (r.drains k).proceed st k = r')
    (same : (r'.slot k).stay.position = (r.slot k).stay.position) : r.fireMatch st k = r' := by
  subst follows
  exact if_neg fun ⟨_, moved⟩ => moved same

/-- A match that begins a new stay: a late beat counter starts from 1 (R201). -/
theorem Rack.fireMatch_moves {st : Store} {r r' : Rack} {k : SlotIx} (follows : (r.drains k).proceed st k = r')
    (moved : (r'.slot k).stay.position ≠ (r.slot k).stay.position) : r.fireMatch st k =
      if r.hangDue k then r'.modWatch k (fun w => { w with beat := w.beat.map fun _ => 1 }) else r' := by
  subst follows
  by_cases late : r.hangDue k = true
  · rw [if_pos late]
    exact if_pos ⟨late, moved⟩
  · rw [if_neg late]
    exact if_neg fun ⟨h, _⟩ => late h

/-- The watch of the new stay, its counter 1 when a hang was due with the match. -/
def Watch.rearmed (window : Nat) (late : Bool) (w : Watch) : Watch :=
  { Watch.armBeat window w with
    beat := if late then (Watch.armBeat window w).beat.map fun _ => 1 else (Watch.armBeat window w).beat }

theorem Watch.armedFrom_rearmed (window : Nat) (late : Bool) (w : Watch) :
    Watch.armedFrom window (if late then 1 else 0) w (Watch.rearmed window late w) := by
  unfold Watch.rearmed Watch.armBeat
  refine ⟨fun zero => ?_, fun some => ?_⟩
  · rw [if_pos zero]
    cases late <;> rfl
  · rw [if_neg some]
    cases late <;> rfl

theorem Rack.hangDue_start (r : Rack) (k : SlotIx) : (if r.hangDue k then 1 else 0) =
    (match (r.slot k).watch.beat with
      | none => 0
      | some n => if (r.slot k).watch.window ≤ n then 1 else 0) := by
  unfold Rack.hangDue
  cases (r.slot k).watch.beat with
  | none => rfl
  | some n => by_cases h : (r.slot k).watch.window ≤ n <;> simp [h]

/-- A match that begins a new stay, slot by slot. -/
theorem Rack.fireMatch_moves_spec {st : Store} {r r' : Rack} {k : SlotIx} (follows : (r.drains k).proceed st k = r')
    (moved : (r'.slot k).stay.position ≠ (r.slot k).stay.position) {window : Nat} {w : Watch}
    (armed : (r'.slot k).watch = Watch.armBeat window w) :
    (r.fireMatch st k).slot k = { r'.slot k with watch := Watch.rearmed window (r.hangDue k) w } ∧
      Rack.onlySlot k r' (r.fireMatch st k) ∧ (r.fireMatch st k).notices = r'.notices := by
  rw [Rack.fireMatch_moves follows moved]
  cases r.hangDue k with
  | true =>
    rw [if_pos rfl]
    refine ⟨?_, r'.onlySlot_modWatch k _, rfl⟩
    rw [Rack.slot_modWatch_same, armed]
    rfl
  | false =>
    rw [if_neg (by decide)]
    refine ⟨?_, r'.onlySlot_refl k, rfl⟩
    change r'.slot k = { r'.slot k with watch := Watch.armBeat window w }
    rw [← armed]

theorem Rack.onlySlot_issue (st : Store) (r : Rack) (k : SlotIx) : Rack.onlySlot k r (Rack.issue st r k) := by
  obtain ⟨wide, budget, queue, quiesce, bench, -⟩ := r.rest_issue st k
  exact ⟨wide, budget, queue, quiesce, bench, fun _ other => r.slot_issue_ne st other⟩

theorem Rack.onlySlot_drains (r : Rack) (k : SlotIx) : Rack.onlySlot k r (r.drains k) := r.onlySlot_modStay k _

/-- The judged rack of the draining stay. -/
theorem Rack.stageClean_drains {st : Store} {r judged : Rack} {k : SlotIx} {c : CaseRecord} (leaves : Rack.leavesStay st r judged k c) :
    (r.drains k).stageClean st k { c with stay := { c.stay with draining := true } } =
      judged.dress k { stay := fun y => { y with draining := true } } := by
  obtain ⟨_, rfl, rfl⟩ := leaves
  rw [Rack.drains, Rack.modStay_dress]
  exact Rack.stageClean_dress st r k _ rfl rfl rfl

theorem Rack.evidence_of_leavesStay {st : Store} {r judged : Rack} {k : SlotIx} {c : CaseRecord}
    (leaves : Rack.leavesStay st r judged k c) : r.evidence judged ∧ Rack.onlySlot k r judged ∧ judged.notices = r.notices := by
  obtain ⟨_, rfl, rfl⟩ := leaves
  exact r.stageClean_keeps st k c

theorem Rack.record_stageClean_drains {st : Store} {r judged : Rack} {k : SlotIx} {c d : CaseRecord}
    (leaves : Rack.leavesStay st r judged k c) (hd : (judged.slot k).record = some d) :
    (((r.drains k).stageClean st k { c with stay := { c.stay with draining := true } }).slot k).record =
      some { d with stay := { d.stay with draining := true } } := by
  rw [Rack.stageClean_drains leaves, Rack.slot_dress_same]
  exact congrArg (Option.map _) hd

/-- The stay of a case whose profile has ended. -/
def endMarks : Dress where
  stay y := { y with draining := false, heldAdvance := false }

section Match
variable {st : Store} {r judged : Rack} {k : SlotIx} {c d : CaseRecord} (hc : (r.slot k).record = some c)
  (running : c.state = .running) (program : (r.slot k).seq.mode = .program)
  (boundary : (r.slot k).atBoundary = true) (active : r.quiesce = .active) (bench : r.bench.state = .idle)
include hc running program boundary active bench

/-- At a boundary the match takes the advance. -/
theorem Rack.takeOrHoldAdvance_drains : (r.drains k).takeOrHoldAdvance st k = (r.drains k).stageAdvance st k := by
  have own := Rack.slot_drains hc
  refine Rack.takeOrHoldAdvance_takes st ?_ ?_ ?_ ?_ active ?_
  · rw [own]
    rfl
  · rw [own]
    exact program
  · rw [own]
    exact boundary
  · rw [own]
    exact congrArg some running
  · exact (show (match r.bench.state with | .granted j => j == k | .idle | .pending _ => false) = false by rw [bench])

/-- What follows the match when the advance leaves no drain boundary. -/
theorem Rack.proceed_drains {r' : Rack} (taken : (r.drains k).stageAdvance st k = r') (quiesce : r'.quiesce = .active)
    (idle : r'.bench.state = .idle) (still : (r'.slot k).stay.draining = false ∨ (r'.slot k).seq.mode ≠ .program ∨
      (r'.slot k).atBoundary = false) : (r.drains k).proceed st k = Rack.issue st r' k := by
  rw [Rack.proceed_advance st
    ((Rack.takeOrHoldAdvance_drains hc running program boundary active bench).trans taken) still]
  exact Rack.proceed_issues st (by rw [quiesce]; decide) (Rack.unpended_of_idle idle) still

variable (leaves : Rack.leavesStay st r judged k c) (hd : (judged.slot k).record = some d)
include leaves hd

/-- The match whose advance is granted. -/
theorem Rack.fireMatch_granted {p : Position} (next : (caseModel st c).nextPosition c.stay.position = some p)
    (empty : r.queue = [])
    (fits : ((caseModel st c).stage p.stage).units = 0 ∨ ((caseModel st c).stage p.stage).units ≤ (r.setUnits k 0).freeUnits) :
    ∃ (l : Line) (run : Option Nat), (r.fireMatch st k).slot k = { judged.slot k with
      record := some { d with stay := Stay.begin p ((caseModel st c).stage p.stage) }
      units := ((caseModel st c).stage p.stage).units
      rail := Rail.newMargin ((caseModel st c).stage p.stage).margin (r.slot k).rail
      watch := Watch.rearmed ((caseModel st c).stage p.stage).window (r.hangDue k) (r.slot k).watch
      seq := { Sequencer.startProgram (r.slot k).seq with runStart := run }
      line := l } ∧
    Rack.onlySlot k r (r.fireMatch st k) ∧ (r.fireMatch st k).notices = r.notices := by
  have own := Rack.slot_drains hc
  have only := r.onlySlot_drains k
  obtain ⟨adv, onlyAdv, notices⟩ := Rack.stageAdvance_granted (st := st) (congrArg Slot.record own)
    (Rack.record_stageClean_drains leaves hd) rfl next empty active
    (by rw [Rack.freeUnits_giveBack only]; exact fits)
  rw [Rack.stageClean_drains leaves, own, Rack.slot_dress_same] at adv
  have ⟨_, _, _, quiesce, bench', _⟩ := onlyAdv
  have follows := Rack.proceed_drains hc running program boundary active bench rfl (quiesce.trans active)
    ((congrArg Bench.state bench').trans bench) (.inl (by rw [adv]; rfl))
  obtain ⟨l, run, issued⟩ := Rack.slot_issue st ((r.drains k).stageAdvance st k) k
  obtain ⟨-, -, -, -, -, quiet⟩ := Rack.rest_issue st ((r.drains k).stageAdvance st k) k
  rw [adv] at issued
  obtain ⟨fired, onlyFired, told⟩ := Rack.fireMatch_moves_spec follows
    (by rw [issued, Slot.stay_of_record hc]; exact Model.nextPosition_ne next)
    (congrArg Slot.watch issued)
  rw [issued] at fired
  refine ⟨l, run, fired, Rack.onlySlot_trans (Rack.onlySlot_trans (Rack.onlySlot_trans only onlyAdv)
    (Rack.onlySlot_issue st _ k)) onlyFired, ?_⟩
  rw [told, quiet, notices]
  rfl

/-- The match whose advance joins the queue. -/
theorem Rack.fireMatch_joins {p : Position} {joined : List QueueEntry}
    (next : (caseModel st c).nextPosition c.stay.position = some p)
    (some : ((caseModel st c).stage p.stage).units ≠ 0)
    (full : r.queue = [] → (r.setUnits k 0).freeUnits < ((caseModel st c).stage p.stage).units)
    (join : joined = joinQueue ⟨k, c.number, ((caseModel st c).stage p.stage).units, c.priority, false⟩ r.queue)
    (blocked : ∀ e rest, joined = e :: rest → (r.setUnits k 0).freeUnits < e.need) :
    (r.fireMatch st k).slot k = { judged.slot k with
      record := .some { d with state := .waiting, stay := Stay.begin p ((caseModel st c).stage p.stage) }
      stamp := (judged.slot k).stamp + 1
      units := 0
      rail := Rail.newMargin ((caseModel st c).stage p.stage).margin (r.slot k).rail
      watch := Watch.rearmed ((caseModel st c).stage p.stage).window (r.hangDue k) (r.slot k).watch
      seq := { (r.slot k).seq with mode := .off } } ∧
    (r.fireMatch st k).queue = joined ∧ (∀ j, j ≠ k → (r.fireMatch st k).slot j = r.slot j) ∧
    (r.fireMatch st k).notices = (r.noticeSlot k).notices := by
  have own := Rack.slot_drains hc
  have only := r.onlySlot_drains k
  obtain ⟨adv, queue, quiesce, bench', others, notices⟩ := Rack.stageAdvance_joins (st := st) (congrArg Slot.record own)
    (Rack.record_stageClean_drains leaves hd) rfl next some
    (by rw [Rack.freeUnits_giveBack only]; exact full) join (by rw [Rack.freeUnits_giveBack only]; exact blocked)
  rw [Rack.stageClean_drains leaves, own, Rack.slot_dress_same] at adv
  have follows := Rack.proceed_drains hc running program boundary active bench rfl (quiesce.trans active)
    ((congrArg Bench.state bench').trans bench) (.inl (by rw [adv]; rfl))
  rw [Rack.issue_off st _ k (by rw [adv])] at follows
  obtain ⟨fired, onlyFired, told⟩ := Rack.fireMatch_moves_spec follows
    (by rw [adv, Slot.stay_of_record hc]; exact Model.nextPosition_ne next) (congrArg Slot.watch adv)
  obtain ⟨-, -, queueFired, -, -, othersFired⟩ := onlyFired
  obtain ⟨-, -, -, -, -, othersDrains⟩ := only
  rw [adv] at fired
  refine ⟨fired, queueFired.trans queue, fun j other => ?_, told.trans notices⟩
  rw [othersFired j other, others j other, othersDrains j other]

/-- The match at the last position. -/
theorem Rack.fireMatch_ends (last : (caseModel st c).nextPosition c.stay.position = none) :
    r.fireMatch st k = (judged.dress k endMarks).endRun st k (.done .complete (verdictOf d.suspects)) := by
  have own := Rack.slot_drains hc
  have marked : (judged.dress k { stay := fun y => { y with draining := true } }).modStay k
      (fun y => { y with draining := false, heldAdvance := false }) = judged.dress k endMarks := Rack.dress_modStay ..
  have ends := Rack.stageAdvance_ends (st := st) (congrArg Slot.record own) (Rack.record_stageClean_drains leaves hd) rfl last
  rw [Rack.stageClean_drains leaves, marked] at ends
  have evidence := (Rack.evidence_of_leavesStay leaves).1
  have ⟨_, _, _, quiesceJudged, benchJudged, _, _⟩ := evidence
  obtain ⟨ended, -, -, quiesce, bench', -⟩ :=
    Rack.endRun_spec st (judged.dress k endMarks) k (.done .complete (verdictOf d.suspects))
  have record : ((judged.dress k endMarks).slot k).record = some (endMarks.record d) := by
    rw [Rack.slot_dress_same]
    exact congrArg (Option.map _) hd
  rw [record, Option.map_some] at ended
  have follows := Rack.proceed_drains hc running program boundary active bench ends (quiesce.trans (quiesceJudged.trans active))
    ((congrArg Bench.state (bench'.trans benchJudged)).trans bench) (.inr (.inl (by rw [ended]; simp)))
  rw [Rack.issue_off st _ k (by rw [ended]; simp)] at follows
  refine Rack.fireMatch_stays follows ?_
  obtain ⟨d', hd', same⟩ := Rack.evidence_record evidence hc
  rw [hd] at hd'
  obtain ⟨-, -, -, stay⟩ := CaseRecord.evidence_keeps (Option.some.inj hd' ▸ same)
  rw [Slot.stay_of_record hc, ended]
  exact (congrArg Stay.position stay :)

end Match

/-- Settles O44. -/
theorem aStageMatchDrainsOrAdvances : Obligations.AStageMatchDrainsOrAdvances := by
  intro s k c hc running calm reached active bench
  have due : s.rack.due s.store k .stageMatch = true := by
    simp [Rack.due, Rack.matchDue, hc, calm, reached, running]
  have own := Rack.slot_drains hc
  refine ⟨fun busy => ?_, fun judged d start boundary program leaves hd started =>
    ⟨fun p next fits empty => ?_, fun p need entry joined next needed some entered normal rush full blocked => ?_, fun last => ?_⟩⟩
  · have follows : (s.rack.drains k).proceed s.store k = s.rack.drains k := by
      have held : (s.rack.drains k).quiesce ≠ .quiescing := by
        change s.rack.quiesce ≠ .quiescing
        rw [active]
        decide
      have idle : (s.rack.drains k).bench.state = .idle := bench
      have inFlight : ((s.rack.drains k).slot k).atBoundary = false := by
        rw [own, Slot.atBoundary]
        obtain ⟨x, hx⟩ := Option.isSome_iff_exists.mp busy
        rw [hx]
        rfl
      rw [Rack.proceed_issues s.store held (Rack.unpended_of_idle idle) (.inr (.inr inFlight)),
        Rack.issue_busy s.store _ k (by rw [own]; exact busy)]
    have fired := Rack.fireMatch_stays follows (by rw [own, Slot.stay_of_record hc]; rfl)
    exact ⟨s.rack.drains k, (exec_expiry rfl due).trans (congrArg (fun r => Host.Outcome.next (s.withRack r)) fired), own,
      s.rack.onlySlot_drains k, rfl⟩
  · obtain rfl : start = if s.rack.hangDue k then 1 else 0 := started.trans (s.rack.hangDue_start k).symm
    obtain ⟨l, run, fired, only, notices⟩ := Rack.fireMatch_granted hc running program boundary active bench leaves hd next empty
      (fits.imp_right And.right)
    refine ⟨s.rack.fireMatch s.store k, exec_expiry rfl due, ?_⟩
    rw [fired]
    exact ⟨rfl, rfl, rfl, rfl, Watch.armedFrom_rearmed _ _ _, rfl, rfl, rfl, only, notices⟩
  · obtain rfl : start = if s.rack.hangDue k then 1 else 0 := started.trans (s.rack.hangDue_start k).symm
    subst needed entered
    obtain ⟨fired, queue, others, notices⟩ := Rack.fireMatch_joins hc running program boundary active bench leaves hd next some full
      (joinQueue_eq (e := ⟨k, c.number, ((caseModel s.store c).stage p.stage).units, c.priority, false⟩) normal rush) blocked
    refine ⟨s.rack.fireMatch s.store k, exec_expiry rfl due, ?_⟩
    rw [fired]
    exact ⟨rfl, rfl, rfl, queue, rfl, Watch.armedFrom_rearmed _ _ _, rfl, others, notices⟩
  · have ended := Rack.fireMatch_ends hc running program boundary active bench leaves hd last
    refine ⟨s.rack.fireMatch s.store k, exec_expiry rfl due, ?_⟩
    obtain ⟨evidence, onlyJudged, -⟩ := Rack.evidence_of_leavesStay leaves
    have ⟨wideJudged, budgetJudged, queueJudged, _, _, othersJudged⟩ := onlyJudged
    obtain ⟨d', hd', same⟩ := Rack.evidence_record evidence hc
    rw [hd] at hd'
    obtain ⟨-, -, -, stay⟩ := CaseRecord.evidence_keeps (Option.some.inj hd' ▸ same)
    have told := Rack.hasSlot_endRun s.store (judged.dress k endMarks) k (.done .complete (verdictOf d.suspects))
    obtain ⟨own', wide, budget, -, -, -, queue, -, others⟩ :=
      Rack.endRun_spec s.store (judged.dress k endMarks) k (.done .complete (verdictOf d.suspects))
    have record : ((judged.dress k endMarks).slot k).record = some (endMarks.record d) := by
      rw [Rack.slot_dress_same]
      exact congrArg (Option.map _) hd
    have queued : ∀ j, (judged.dress k endMarks).queued j = s.rack.queued j := fun j =>
      congrArg (fun q : List QueueEntry => q.any fun e => e.slot == j) queueJudged
    rw [record, Option.map_some] at own'
    rw [ended, own']
    refine ⟨?_, rfl, ?_, Rack.isOn_dropRun _ k, Rack.mode_dropRun _ k, ?_, ?_, ⟨wide.trans wideJudged, budget.trans budgetJudged,
      queueJudged ▸ queue, fun j other free _ => ?_⟩, told⟩
    · rw [← stay]
      rfl
    · rw [Rack.slot_dress_same]
      rfl
    · simp
    · simp
    · rw [others j other ((queued j).trans free), Rack.slot_dress_ne _ _ other, othersJudged j other]

end Sys2Proof.Machine
end

section
/-! The rack tick (R8, R95, R106, R138, R140, R147, R189, R195, R198). -/

namespace Sys2Proof.Machine

/-- A tick is inside the slots. -/
theorem Rack.rest_tick (st : Store) (r : Rack) : (r.tick st).queue = r.queue ∧ (r.tick st).quiesce = r.quiesce ∧
    (r.tick st).bench = r.bench ∧ (r.tick st).notices = r.notices :=
  ⟨foldl_keeps (fun r' j => r'.setSlot j (r.tickSlot st j)) Rack.queue (fun r' _ => Rack.queue_setSlot r' _ _) allSlots r,
    Rack.quiesce_tick st r,
    foldl_keeps (fun r' j => r'.setSlot j (r.tickSlot st j)) Rack.bench (fun r' _ => Rack.bench_setSlot r' _ _) allSlots r,
    foldl_keeps (fun r' j => r'.setSlot j (r.tickSlot st j)) Rack.notices (fun r' _ => Rack.notices_setSlot r' _ _) allSlots r⟩

theorem Rack.moving_iff {r : Rack} {k : SlotIx} : r.moving k = true ↔ r.isGranted k = false ∧ r.quiesce = .active := by
  simp [Rack.moving]

theorem Rack.not_moving {r : Rack} {k : SlotIx} (h : r.isGranted k = true ∨ r.quiesce ≠ .active) : r.moving k = false := by
  rw [← Bool.not_eq_true, Rack.moving_iff]
  rintro ⟨free, active⟩
  rcases h with granted | held
  · rw [granted] at free
    cases free
  · exact held active

theorem CaseRecord.tick_spec (halfPeriod : Nat) (c : CaseRecord) :
    (c.tick halfPeriod).state = c.state ∧ (c.tick halfPeriod).suspects = c.suspects ∧
    (c.stay.draining = false → (c.tick halfPeriod).stay.elapsed = c.stay.elapsed + 1 ∧
      (c.tick halfPeriod).stress = min (c.stress + 1) 4294967295) ∧
    (c.stay.draining = true → (c.tick halfPeriod).stay.elapsed = c.stay.elapsed ∧ (c.tick halfPeriod).stress = c.stress) ∧
    (c.tick halfPeriod).stay.alternation = if halfPeriod = 0 then c.stay.alternation else c.stay.alternation + 1 := by
  have elapsed : ∀ y, (tickAlternation halfPeriod y).elapsed = y.elapsed := fun y => by
    unfold tickAlternation
    split <;> rfl
  have alternation : ∀ y, (tickAlternation halfPeriod y).alternation =
      if halfPeriod = 0 then y.alternation else y.alternation + 1 := fun y => by
    unfold tickAlternation
    split <;> rfl
  unfold CaseRecord.tick
  cases c.stay.draining with
  | true =>
    rw [if_pos rfl]
    exact ⟨rfl, rfl, fun h => (by cases h), fun _ => ⟨elapsed _, rfl⟩, alternation _⟩
  | false =>
    rw [if_neg (by decide)]
    exact ⟨rfl, rfl, fun _ => ⟨elapsed _, rfl⟩, fun h => (by cases h), alternation _⟩

theorem Sequencer.tick_eq (q : Sequencer) : q.tick = { q with waitTickSeen := q.waitTickSeen || q.tickWait } := by
  unfold Sequencer.tick
  by_cases wait : q.tickWait = true
  · rw [if_pos wait, wait, Bool.or_true]
  · have seen : (q.waitTickSeen || q.tickWait) = q.waitTickSeen := by simp [wait]
    rw [if_neg wait, seen]

section TickSlot
variable (st : Store) {r : Rack} {k : SlotIx}

theorem Rack.record_tickSlot_moving (running : (r.slot k).caseState = some .running) (moving : r.moving k = true) :
    (r.tickSlot st k).record = (r.slot k).record.map (CaseRecord.tick (r.stage st k).halfPeriod) :=
  if_pos ⟨running, moving⟩

theorem Rack.record_tickSlot_still (h : (r.slot k).caseState ≠ some .running ∨ r.moving k = false) :
    (r.tickSlot st k).record = (r.slot k).record := by
  refine if_neg fun ⟨running, moving⟩ => ?_
  rcases h with other | frozen
  · exact other running
  · rw [frozen] at moving
    cases moving

theorem Rack.rest_tickSlot : (r.tickSlot st k).rail.rest =
    if (r.slot k).caseState = some .resting ∧ r.quiesce = .active then (r.slot k).rail.rest.map (· + 1)
    else (r.slot k).rail.rest := by
  change (if ((r.slot k).caseState == some .resting && r.quiesce == .active) = true then _ else _) = _
  simp only [Bool.and_eq_true, beq_iff_eq]

theorem Rack.boot_tickSlot : (r.tickSlot st k).watch.boot =
    if (r.slot k).caseState = some .powering ∧ r.moving k = true then (r.slot k).watch.boot.map (· + 1)
    else (r.slot k).watch.boot := by
  change (if ((r.slot k).caseState == some .powering && r.moving k) = true then _ else _) = _
  simp only [Bool.and_eq_true, beq_iff_eq]

theorem Slot.beats_iff (sl : Slot) : sl.caseState.any CaseState.beats = true ↔
    sl.caseState = some .running ∨ sl.caseState = some .paused ∨ sl.caseState = some .waiting := by
  cases sl.caseState with
  | none => simp
  | some cs => cases cs <;> simp [CaseState.beats]

theorem Rack.beat_tickSlot : (r.tickSlot st k).watch.beat =
    if ((r.slot k).caseState = some .running ∨ (r.slot k).caseState = some .paused ∨ (r.slot k).caseState = some .waiting) ∧
      r.moving k = true then (r.slot k).watch.beat.map (· + 1)
    else (r.slot k).watch.beat := by
  change (if ((r.slot k).caseState.any CaseState.beats && r.moving k) = true then _ else _) = _
  simp only [Bool.and_eq_true, Slot.beats_iff]

end TickSlot

/-- Settles O43. -/
theorem aRackTickCounts : Obligations.ARackTickCounts := by
  refine ⟨fun s quiet unset => ?_, fun s quiet set => ?_⟩
  · rw [exec_rackTick quiet, State.tick_not_set unset]
  · obtain ⟨queue, quiesce, bench, notices⟩ := s.rack.rest_tick s.store
    refine ⟨s.rack.tick s.store, by rw [exec_rackTick quiet, State.tick_set set], queue, quiesce, bench, notices, fun k => ?_⟩
    rw [Rack.slot_tick]
    refine ⟨rfl, rfl, rfl, rfl, rfl, Sequencer.tick_eq _, fun c hc ⟨running, free, active⟩ => ?_, fun frozen => ?_,
      fun rising => if_pos rising, fun sag => if_pos sag, fun n resting active armed => ?_, fun n powering free active armed => ?_,
      fun n beats free active armed => ?_, fun other => if_neg other, fun other => if_neg other, fun frozen => ?_,
      fun frozen => ?_, fun frozen => ?_, fun none => ?_, fun none => ?_, rfl, rfl⟩
    · obtain ⟨state, suspects, counts, drains, alternation⟩ :=
        CaseRecord.tick_spec (s.rack.stage s.store k).halfPeriod c
      rw [Rack.stage_of_record s.store hc] at *
      refine ⟨c.tick (caseStage s.store c).halfPeriod, ?_, state.trans running, suspects, counts, drains, alternation⟩
      rw [Rack.record_tickSlot_moving s.store (by rw [Slot.caseState_of_record hc, running]) (Rack.moving_iff.mpr ⟨free, active⟩),
        Rack.stage_of_record s.store hc, hc]
      rfl
    · exact Rack.record_tickSlot_still s.store (frozen.imp_right Rack.not_moving)
    · rw [Rack.rest_tickSlot, if_pos ⟨resting, active⟩, armed]
      rfl
    · rw [Rack.boot_tickSlot, if_pos ⟨powering, Rack.moving_iff.mpr ⟨free, active⟩⟩, armed]
      rfl
    · rw [Rack.beat_tickSlot, if_pos ⟨beats, Rack.moving_iff.mpr ⟨free, active⟩⟩, armed]
      rfl
    · rw [Rack.rest_tickSlot, if_neg (not_and_or.mpr frozen)]
    · refine (Rack.boot_tickSlot s.store).trans (if_neg fun ⟨powering, moving⟩ => ?_)
      rcases frozen with other | frozen
      · exact other powering
      · rw [Rack.not_moving frozen] at moving
        cases moving
    · refine (Rack.beat_tickSlot s.store).trans (if_neg fun ⟨beats, moving⟩ => ?_)
      rcases frozen with ⟨running, paused, waiting⟩ | frozen
      · tauto
      · rw [Rack.not_moving frozen] at moving
        cases moving
    · rw [Rack.boot_tickSlot, none, Option.map_none, ite_self]
    · rw [Rack.beat_tickSlot, none, Option.map_none, ite_self]

end Sys2Proof.Machine
end

section
/-! The inputs of a slot: latches and the heartbeat (R24, R25, R148 to R150, R194). -/

namespace Sys2Proof.Machine

/-! ## The row of a slot input -/

theorem exec_input {s : State} {i : Instr} {k : SlotIx} {event : Store → Rack → Rack}
    (row : exec i s = .next (s.onRack fun st r => r.onInput k (event st))) (quiet : s.quiet) (use : s.rack.inUse k = true) :
    exec i s = .next (s.withRack (event s.store s.rack)) := by
  rw [row, State.onRack_of_quiet quiet, Rack.onInput, if_pos use]

theorem exec_input_ignored {s : State} {i : Instr} {k : SlotIx} {event : Store → Rack → Rack}
    (row : exec i s = .next (s.onRack fun st r => r.onInput k (event st))) (quiet : s.quiet) (use : s.rack.inUse k = false) :
    exec i s = .next s := by
  rw [row, State.onRack_of_quiet quiet, Rack.onInput, if_neg (by simp [use])]
  rfl

/-! ## The heartbeat (R194) -/

theorem Watch.sample_spec (level : Bool) (w : Watch) :
    (w.sample level).lastSample = some level ∧ (w.sample level).window = w.window ∧ (w.sample level).boot = w.boot ∧
      (w.sample level).beat = if w.lastSample = some !level then w.beat.map fun _ => 0 else w.beat := by
  unfold Watch.sample
  cases last : w.lastSample with
  | none => exact ⟨rfl, rfl, rfl, (if_neg (by simp)).symm⟩
  | some old =>
    by_cases same : old = level
    · subst same
      dsimp only
      rw [if_pos rfl]
      exact ⟨last, rfl, rfl, (if_neg (by simp)).symm⟩
    · have edge : old = !level := Bool.eq_not.mpr same
      dsimp only
      rw [if_neg same]
      exact ⟨rfl, rfl, rfl, (if_pos (by rw [edge])).symm⟩

/-- Settles O51. -/
theorem aHeartbeatEdgeRestartsTheBeatCounter : Obligations.AHeartbeatEdgeRestartsTheBeatCounter := by
  intro s k level quiet use
  have own := s.rack.slot_modWatch_same k (Watch.sample level)
  refine ⟨_, exec_input (i := .heartbeatEdge k level) (event := fun _ r => r.modWatch k (Watch.sample level)) rfl quiet use,
    s.rack.onlySlot_modWatch k _, rfl, ?_⟩
  rw [own]
  exact ⟨rfl, Watch.sample_spec level _⟩

/-! ## Samples of a latch (R148) -/

theorem Rack.onlySlot_modSlot (r : Rack) (k : SlotIx) (f : Slot → Slot) : Rack.onlySlot k r (r.modSlot k f) :=
  ⟨rfl, rfl, rfl, rfl, rfl, fun _ other => r.slot_modSlot_ne f other⟩

/-- The count of the samples that disagree becomes `n`. -/
def Rack.latchCounted (r : Rack) (k : SlotIx) (n : Nat) : Rack := r.modSlot k fun sl => { sl with latchCount := n }

theorem Rack.sampleLatch_counts (st : Store) {r : Rack} {k : SlotIx} {closed : Bool} {n : Nat}
    (sampled : debounce Config.latchSamples (r.slot k).latchClosed (r.slot k).latchCount closed = ((r.slot k).latchClosed, n)) :
    r.sampleLatch st k closed = r.latchCounted k n := by
  unfold Rack.sampleLatch
  dsimp only
  rw [sampled]
  exact if_pos rfl

theorem Rack.sampleLatch_changes (st : Store) {r : Rack} {k : SlotIx} {closed : Bool}
    (other : (r.slot k).latchClosed = !closed) (last : (r.slot k).latchCount = 19) :
    r.sampleLatch st k closed =
      if closed then (r.latchCounted k 0).closeLatch st k else (r.latchCounted k 0).openLatch st k := by
  have differs : closed ≠ (r.slot k).latchClosed := by
    rw [other]
    cases closed <;> decide
  have sampled := debounce_change (limit := Config.latchSamples) (count := (r.slot k).latchCount) differs
    (by rw [last]; decide)
  unfold Rack.sampleLatch
  dsimp only
  rw [sampled]
  exact if_neg differs

/-! ## Pulls and seats (R24, R25, R149) -/

/-- The debounced latch state after its change, which every slot tells. -/
def Rack.latched (r : Rack) (k : SlotIx) (closed : Bool) : Rack :=
  ((r.latchCounted k 0).modSlot k fun sl => { sl with latchClosed := closed }).noticeSlot k

theorem Rack.slot_latched (r : Rack) (k : SlotIx) (closed : Bool) :
    (r.latched k closed).slot k = { r.slot k with latchClosed := closed, latchCount := 0 } := by
  rw [Rack.latched, Rack.slot_noticeSlot, Rack.slot_modSlot_same, Rack.latchCounted, Rack.slot_modSlot_same]

theorem Rack.onlySlot_latched (r : Rack) (k : SlotIx) (closed : Bool) : Rack.onlySlot k r (r.latched k closed) :=
  have changed := Rack.onlySlot_trans (r.onlySlot_modSlot k fun sl => { sl with latchCount := 0 })
    (Rack.onlySlot_modSlot _ k fun sl => { sl with latchClosed := closed })
  changed

/-- A latch that opens: a case in a run is pulled. -/
theorem Rack.openLatch_eq (st : Store) (r : Rack) (k : SlotIx) : (r.latchCounted k 0).openLatch st k =
    if (r.slot k).inRun then ((r.latched k false).endRun st k .pulled).proceed st k else r.latched k false := by
  have run : ((r.latched k false).slot k).inRun = (r.slot k).inRun := by
    rw [Rack.slot_latched]
    rfl
  unfold Rack.openLatch
  change (if ((r.latched k false).slot k).inRun = true then _ else _) = _
  rw [run]
  rfl

/-- A latch that closes: a PULLED case is READY in a new stay at its position. -/
theorem Rack.closeLatch_eq (st : Store) (r : Rack) (k : SlotIx) : (r.latchCounted k 0).closeLatch st k =
    if (r.slot k).caseState = some .pulled then ((r.latched k true).beginStay st k (r.slot k).stay.position).enter k .ready
    else r.latched k true := by
  have own : ((r.latched k true).slot k).caseState = (r.slot k).caseState ∧
      ((r.latched k true).slot k).stay = (r.slot k).stay := by
    rw [Rack.slot_latched]
    exact ⟨rfl, rfl⟩
  obtain ⟨state, stay⟩ := own
  unfold Rack.closeLatch
  change (if ((r.latched k true).slot k).caseState = some .pulled then
    ((r.latched k true).beginStay st k ((r.latched k true).slot k).stay.position).enter k .ready else r.latched k true) = _
  rw [state, stay]

/-- A slot that is in the notice set enters it again unchanged. -/
theorem Rack.notices_noticeSlot_twice (r : Rack) (k : SlotIx) :
    ((r.noticeSlot k).noticeSlot k).notices = (r.noticeSlot k).notices := by
  simp only [Rack.noticeSlot, BitVec.or_assoc, BitVec.or_self]

/-- What follows the end of a run tells its slot. -/
theorem Rack.hasSlot_endRun_proceed (st : Store) (r : Rack) (k : SlotIx) (cs : CaseState) :
    ((r.endRun st k cs).proceed st k).notices.hasSlot k = true := by
  obtain ⟨own, -⟩ := Rack.endRun_spec st r k cs
  refine Rack.hasSlot_proceed_still st _ k k (Rack.hasSlot_endRun st r k cs) (.inr (.inl ?_))
  rw [own]
  simp

/-- Settles O50. -/
theorem latchesPullAndSeat : Obligations.LatchesPullAndSeat := by
  have opens (s : State) (k : SlotIx) (quiet : s.quiet) (use : s.rack.inUse k = true) :=
    exec_input (i := .latchOpen k) (event := fun st r => r.sampleLatch st k false) rfl quiet use
  have closes (s : State) (k : SlotIx) (quiet : s.quiet) (use : s.rack.inUse k = true) :=
    exec_input (i := .latchClose k) (event := fun st r => r.sampleLatch st k true) rfl quiet use
  refine ⟨fun s k quiet => ⟨fun unused => ⟨?_, ?_⟩, fun i closed use row => ⟨fun same => ?_, fun other few => ?_⟩⟩,
    fun s k quiet use shut last => ⟨fun out => ?_, fun c hc run => ?_⟩, fun s k quiet use wide last => ?_⟩
  · exact exec_input_ignored (i := .latchOpen k) (event := fun st r => r.sampleLatch st k false) rfl quiet unused
  · exact exec_input_ignored (i := .latchClose k) (event := fun st r => r.sampleLatch st k true) rfl quiet unused
  · have event : ∀ r : Rack, s.rack.sampleLatch s.store k closed = r → exec i s = .next (s.withRack r) := fun r same => by
      rcases row with ⟨rfl, rfl⟩ | ⟨rfl, rfl⟩
      · rw [opens s k quiet use, same]
      · rw [closes s k quiet use, same]
    have counts : s.rack.sampleLatch s.store k closed = s.rack.latchCounted k 0 :=
      Rack.sampleLatch_counts s.store (same ▸ debounce_agree _ _ _)
    exact ⟨_, event _ counts, s.rack.slot_modSlot_same k _, s.rack.onlySlot_modSlot k _, rfl⟩
  · have event : ∀ r : Rack, s.rack.sampleLatch s.store k closed = r → exec i s = .next (s.withRack r) := fun r same => by
      rcases row with ⟨rfl, rfl⟩ | ⟨rfl, rfl⟩
      · rw [opens s k quiet use, same]
      · rw [closes s k quiet use, same]
    have differs : closed ≠ (s.rack.slot k).latchClosed := by
      rw [other]
      cases closed <;> decide
    have counts : s.rack.sampleLatch s.store k closed = s.rack.latchCounted k ((s.rack.slot k).latchCount + 1) :=
      Rack.sampleLatch_counts s.store (debounce_count differs (by change _ < 20; omega))
    exact ⟨_, event _ counts, s.rack.slot_modSlot_same k _, s.rack.onlySlot_modSlot k _, rfl⟩
  · have pulled : s.rack.sampleLatch s.store k false = s.rack.latched k false := by
      rw [Rack.sampleLatch_changes s.store shut last, if_neg (by decide), Rack.openLatch_eq, out, if_neg (by decide)]
    refine ⟨s.rack.latched k false, ?_, s.rack.slot_latched k false, s.rack.onlySlot_latched k false, rfl⟩
    rw [opens s k quiet use, pulled]
  · have pulled : s.rack.sampleLatch s.store k false = ((s.rack.latched k false).endRun s.store k .pulled).proceed s.store k := by
      rw [Rack.sampleLatch_changes s.store shut last, if_neg (by decide), Rack.openLatch_eq, Slot.inRun_of_record hc,
        if_pos run]
    have own := s.rack.slot_latched k false
    obtain ⟨wide, budget, queue, -, bench, others⟩ := s.rack.onlySlot_latched k false
    have pending : ∀ j, (s.rack.latched k false).isPending j = s.rack.isPending j := fun j => rfl
    obtain ⟨⟨l, exchange, -, after⟩, wide', budget', queue', unqueued, others'⟩ :=
      Rack.endRun_proceed_spec s.store (s.rack.latched k false) k .pulled
    have given := Rack.endRun_proceed_pending s.store (s.rack.latched k false) k .pulled
    refine ⟨_, (opens s k quiet use).trans (congrArg (fun r => Host.Outcome.next (s.withRack r)) pulled), ?_⟩
    rw [after] at given ⊢
    refine ⟨?_, ?_, ?_, ?_, rfl, unqueued, Rack.isOn_dropRun _ k, ?_, exchange, Rack.mode_dropRun _ k, ?_, ?_,
      ⟨wide', budget', queue', fun j other free calm => ?_⟩, Rack.hasSlot_endRun_proceed s.store _ k _, given⟩
    · rw [Rack.latch_dropRun, own]
    · rw [Rack.latchCount_dropRun, own]
    · rw [own, hc]
      rfl
    · rw [own]
    · rw [Rack.rail_dropRun]
    · rw [Rack.watch_dropRun]
    · rw [Rack.watch_dropRun]
    · exact (others' j other free calm).trans (others j other)
  · have seated : s.rack.sampleLatch s.store k true =
        if (s.rack.slot k).caseState = some .pulled then
          ((s.rack.latched k true).beginStay s.store k (s.rack.slot k).stay.position).enter k .ready
        else s.rack.latched k true := by
      rw [Rack.sampleLatch_changes s.store wide last, if_pos rfl, Rack.closeLatch_eq]
    have row := (closes s k quiet use).trans (congrArg (fun r => Host.Outcome.next (s.withRack r)) seated)
    have own := s.rack.slot_latched k true
    by_cases pulled : (s.rack.slot k).caseState = some .pulled
    · rw [if_pos pulled] at row
      refine ⟨_, row, ?_, ?_, fun other => absurd pulled other, fun c hc _ => ?_⟩
      · exact Rack.onlySlot_trans (Rack.onlySlot_trans (s.rack.onlySlot_latched k true) (Rack.onlySlot_modCase _ k _))
          (Rack.onlySlot_enter _ k _)
      · exact s.rack.notices_noticeSlot_twice k
      · rw [Rack.slot_enter_same, Rack.slot_beginStay_same, own, Slot.stay_of_record hc]
        simp only [hc, Option.map_some]
        rfl
    · rw [if_neg pulled] at row
      refine ⟨_, row, s.rack.onlySlot_latched k true, rfl, fun _ => own, fun c hc state => ?_⟩
      exact absurd (by rw [Slot.caseState_of_record hc, state]) pulled

end Sys2Proof.Machine
end

section
/-! Converter scans (R134 to R141). -/

namespace Sys2Proof.Machine

/-! ## A scan by the state of its rail -/

section Scan
variable (st : Store) {r : Rack} {k : SlotIx} {uv : Nat}

/-- A scan that leaves the rail as it is. -/
theorem Rack.scan_stays (h : (r.slot k).rail.state = .rising ∧ railLevel (r.slot k).rail.margin uv < 950 ∨
    (r.slot k).rail.state = .good ∧ 920 ≤ railLevel (r.slot k).rail.margin uv ∨
    (r.slot k).rail.state = .sag ∧ 850 ≤ railLevel (r.slot k).rail.margin uv ∧
      railLevel (r.slot k).rail.margin uv < 950) : r.scan st k uv false = r := by
  unfold Rack.scan
  dsimp only
  rcases h with ⟨state, low⟩ | ⟨state, high⟩ | ⟨state, high, low⟩
  · rw [state]
    dsimp only
    rw [if_neg (by decide), if_neg (by omega)]
  · rw [state]
    dsimp only
    rw [if_neg (by decide), if_neg (by omega)]
  · rw [state]
    dsimp only
    rw [if_neg (by decide), if_neg (by omega), if_neg (by omega)]

theorem Rack.scan_off (off : (r.slot k).rail.state = .off ∨ (r.slot k).rail.state = .tripped) (oc : Bool) :
    r.scan st k uv oc = r := by
  unfold Rack.scan
  dsimp only
  rcases off with state | state
  · rw [state]
  · rw [state]

theorem Rack.scan_good (rises : (r.slot k).rail.state = .rising ∨ (r.slot k).rail.state = .sag)
    (high : 950 ≤ railLevel (r.slot k).rail.margin uv) : r.scan st k uv false = r.railGood st k := by
  unfold Rack.scan
  dsimp only
  rcases rises with state | state
  · rw [state]
    dsimp only
    rw [if_neg (by decide), if_pos high]
  · rw [state]
    dsimp only
    rw [if_neg (by decide), if_pos high]

theorem Rack.scan_sag (good : (r.slot k).rail.state = .good) (low : railLevel (r.slot k).rail.margin uv < 920) :
    r.scan st k uv false = r.railSag st k := by
  unfold Rack.scan
  dsimp only
  rw [good]
  dsimp only
  rw [if_neg (by decide), if_pos low]

theorem Rack.scan_trips {oc : Bool} (on : (r.slot k).rail.state.isOn = true)
    (trips : oc = true ∨ (r.slot k).rail.state = .sag ∧ railLevel (r.slot k).rail.margin uv < 850) :
    r.scan st k uv oc = r.trip st k .trip := by
  unfold Rack.scan
  dsimp only
  rcases trips with rfl | ⟨sag, low⟩
  · cases state : (r.slot k).rail.state with
    | off =>
      rw [state] at on
      cases on
    | tripped =>
      rw [state] at on
      cases on
    | rising => rfl
    | good => rfl
    | sag => rfl
  · rw [sag]
    dsimp only
    cases oc with
    | true => rfl
    | false => rw [if_neg (by decide), if_neg (by omega), if_pos low]

end Scan

/-! ## GOOD (R138) -/

/-- The rail at its good level. -/
def Rail.good (l : Rail) : Rail := { l with state := .good, rise := 0, sag := 0 }

/-- A rail that is good again changes nothing else. -/
theorem Rack.railGood_again (st : Store) {r : Rack} {k : SlotIx}
    (again : (r.slot k).caseState ≠ some .powering ∨ (r.slot k).seq.mode ≠ .off) :
    r.railGood st k = r.modRail k Rail.good := by
  have own := r.slot_modRail_same k Rail.good
  unfold Rack.railGood
  refine if_neg fun ⟨powering, off⟩ => ?_
  change ((r.modRail k Rail.good).slot k).caseState = _ at powering
  change ((r.modRail k Rail.good).slot k).seq.mode = _ at off
  rw [own] at powering off
  rcases again with h | h
  · exact h powering
  · exact h off

/-- The rack in which the first GOOD of a POWERING starts the HAIL loop. -/
def Rack.hailLoop (r : Rack) (k : SlotIx) : Rack :=
  ((r.modRail k Rail.good).modSeq k fun q => { q with mode := .hail }).modWatch k fun w => { w with boot := some 0 }

theorem Rack.slot_hailLoop (r : Rack) (k : SlotIx) : (r.hailLoop k).slot k = { r.slot k with
    rail := (r.slot k).rail.good
    seq := { (r.slot k).seq with mode := .hail }
    watch := { (r.slot k).watch with boot := some 0 } } := by
  rw [Rack.hailLoop, Rack.slot_modWatch_same, Rack.slot_modSeq_same, Rack.slot_modRail_same]

theorem Rack.onlySlot_hailLoop (r : Rack) (k : SlotIx) : Rack.onlySlot k r (r.hailLoop k) :=
  Rack.onlySlot_trans (Rack.onlySlot_trans (r.onlySlot_modRail k _) (Rack.onlySlot_modSeq _ k _))
    (Rack.onlySlot_modWatch _ k _)

theorem Rack.railGood_first (st : Store) {r : Rack} {k : SlotIx} (powering : (r.slot k).caseState = some .powering)
    (off : (r.slot k).seq.mode = .off) : r.railGood st k = (r.hailLoop k).proceed st k := by
  have own := r.slot_modRail_same k Rail.good
  unfold Rack.railGood
  refine if_pos ⟨?_, ?_⟩
  · change ((r.modRail k Rail.good).slot k).caseState = _
    rw [own]
    exact powering
  · change ((r.modRail k Rail.good).slot k).seq.mode = _
    rw [own]
    exact off

/-- In HAIL mode nothing is issued under a grant or in a held rack. -/
theorem Rack.issue_hail_held (st : Store) {r : Rack} {k : SlotIx} (hail : (r.slot k).seq.mode = .hail)
    (held : r.isGranted k = true ∨ r.quiesce ≠ .active) : Rack.issue st r k = r := by
  unfold Rack.issue
  cases (r.slot k).record with
  | none => rfl
  | some c =>
    refine if_neg ?_
    rcases held with granted | held
    · simp [mayIssue, hail, Rack.stopReasons, granted]
    · simp [mayIssue, hail, Rack.stopReasons, held]

/-- A HOLD given elsewhere leaves the bench's hand off a slot. -/
theorem Rack.grantPending_elsewhere {r : Rack} {k : SlotIx} (unpended : r.isPending k = false) :
    r.grantPending.slot k = r.slot k ∧ r.grantPending.isGranted k = r.isGranted k ∧ r.grantPending.isPending k = false := by
  unfold Rack.grantPending
  cases bench : r.bench.state with
  | idle => exact ⟨rfl, rfl, unpended⟩
  | granted i => exact ⟨rfl, rfl, unpended⟩
  | pending i =>
    have other : k ≠ i := fun same => by simp [Rack.isPending, bench, same] at unpended
    dsimp only
    split
    · simp [Rack.benchGrant, Rack.isGranted, Rack.isPending, bench, other, Ne.symm other]
    · exact ⟨rfl, rfl, unpended⟩

/-- What follows in HAIL mode, at a slot whose HOLD is not pending. -/
theorem Rack.slot_proceed_hail (st : Store) {r : Rack} {k : SlotIx} {c : CaseRecord} (hc : (r.slot k).record = some c)
    (hail : (r.slot k).seq.mode = .hail) (wait : (r.slot k).seq.tickWait = false) (none : (r.slot k).line.exchange = none)
    (calm : c.state ≠ .paused) (unpended : r.isPending k = false)
    (idle : r.isGranted k = false → (r.slot k).line.state = .idle) :
    (r.isGranted k = false → r.quiesce = .active →
      (r.proceed st k).slot k = { r.slot k with line := (r.slot k).line.issueHail }) ∧
    (r.isGranted k = true ∨ r.quiesce ≠ .active → (r.proceed st k).slot k = r.slot k) := by
  obtain ⟨own, granted, unpended'⟩ := Rack.grantPending_elsewhere unpended
  obtain ⟨-, -, -, quiesce, -⟩ := r.rest_grantPending
  have follows : (r.proceed st k).slot k = (Rack.issue st r.grantPending k).slot k := by
    unfold Rack.proceed
    rw [Rack.takeOrHoldAdvance_still st r k (.inr (.inl (by rw [hail]; decide))), Rack.slot_checkQuiesced]
  rw [follows]
  refine ⟨fun free active => ?_, fun held => ?_⟩
  · rw [Rack.issue_hail st (by rw [own, hc]) (by rw [own, hail]) (by rw [own, wait]) (by rw [own, none])
      (by rw [own, idle free]) calm (by rw [quiesce, active]) unpended' (by rw [granted, free]), Rack.slot_modLine_same, own]
  · rw [Rack.issue_hail_held st (by rw [own, hail]) (by rwa [granted, quiesce]), own]

/-! ## SAG (R139) -/

/-- A sag: the rail in SAG, counted, the stay no longer rail-clean. -/
def sagMarks : Dress where
  rail l := { l with state := .sag, sag := 0 }
  sags := bump Config.max16
  stay y := { y with railClean := false }

theorem Rack.railSag_eq {st : Store} {r : Rack} {k : SlotIx} {c : CaseRecord} (hc : (r.slot k).record = some c) :
    r.railSag st k = (r.failNow st k (caseModel st c).header.rail .sag).dress k sagMarks := by
  have cut : ((r.modRail k fun l => { l with state := .sag, sag := 0 }).modCase k
      fun c => { c with sagCount := bump Config.max16 c.sagCount }) =
      r.dress k { rail := fun l => { l with state := .sag, sag := 0 }, sags := bump Config.max16 } := by
    unfold Rack.modRail Rack.modCase Rack.dress
    rw [Rack.modSlot_modSlot]
    rfl
  unfold Rack.railSag
  dsimp only
  rw [cut]
  unfold Rack.railFail
  rw [Rack.record_dress, if_pos rfl, hc, Option.map_some]
  dsimp only
  rw [Rack.failNow_dress st r k _ fun _ => ⟨rfl, rfl⟩, Rack.dress_modStay]
  rfl

/-! ## The levels (R134) -/

/-- Settles O49. -/
theorem scansJudgeTheRail : Obligations.ScansJudgeTheRail := by
  have row (s : State) (k : SlotIx) (uv : Nat) (oc : Bool) (quiet : s.quiet) (use : s.rack.inUse k = true) :=
    exec_input (i := .railScan k uv oc) (event := fun st r => r.scan st k uv oc) rfl quiet use
  refine ⟨fun s k uv quiet use => ⟨fun off oc => ?_, fun state low => ?_, fun state high => ?_, fun state high low => ?_,
    fun rises high => ⟨fun again => ?_, fun c hc powering off wait none unpended idle => ?_⟩⟩,
    fun s k c uv quiet use hc run => ⟨fun good low => ?_, fun oc on trips => ?_⟩, fun uv range => ?_⟩
  · rw [row s k uv oc quiet use, Rack.scan_off s.store off]
    rfl
  · rw [row s k uv false quiet use, Rack.scan_stays s.store (.inl ⟨state, low⟩)]
    rfl
  · rw [row s k uv false quiet use, Rack.scan_stays s.store (.inr (.inl ⟨state, high⟩))]
    rfl
  · rw [row s k uv false quiet use, Rack.scan_stays s.store (.inr (.inr ⟨state, high, low⟩))]
    rfl
  · refine ⟨s.rack.modRail k Rail.good, ?_, s.rack.slot_modRail_same k _, s.rack.onlySlot_modRail k _, rfl⟩
    rw [row s k uv false quiet use, Rack.scan_good s.store rises high, Rack.railGood_again s.store again]
  · have own := s.rack.slot_hailLoop k
    have hail : ((s.rack.hailLoop k).slot k).seq.mode = .hail := by rw [own]
    obtain ⟨issued, held⟩ := Rack.slot_proceed_hail s.store (r := s.rack.hailLoop k) (k := k) (c := c) (by rw [own, hc]) hail
      (by rw [own, wait]) (by rw [own, none]) (by rw [powering]; decide) unpended (by rw [own]; exact idle)
    obtain ⟨-, -, -, ⟨l, run, after⟩, others⟩ := Rack.proceed_still s.store (s.rack.hailLoop k) k
      (.inr (.inl (by rw [hail]; decide)))
    obtain ⟨-, -, -, -, -, same⟩ := s.rack.onlySlot_hailLoop k
    refine ⟨(s.rack.hailLoop k).proceed s.store k, ?_, ?_⟩
    · rw [row s k uv false quiet use, Rack.scan_good s.store rises high,
        Rack.railGood_first s.store (by rw [Slot.caseState_of_record hc, powering]) off]
    · have railRecord : ((s.rack.hailLoop k).slot k).record = some c := by rw [own, hc]
      refine ⟨by rw [after]; exact railRecord, by rw [after, own], by rw [after, own]; rfl, ?_, by rw [after, own], fun free active => ?_,
        fun granted => ?_, fun j other calm => (others j other calm).trans (same j other)⟩
      · by_cases granted : s.rack.isGranted k = true ∨ s.rack.quiesce ≠ .active
        · rw [held granted, own]
        · obtain ⟨free, active⟩ := not_or.mp granted
          rw [issued (Bool.eq_false_of_not_eq_true free) (not_not.mp active), own]
      · rw [issued free active, own]
        rfl
      · rw [held granted, own]
  · have evidence := s.rack.evidence_failNow s.store k (caseModel s.store c).header.rail .sag
    obtain ⟨d, hd, same⟩ := Rack.evidence_record evidence hc
    obtain ⟨-, sags, -⟩ := CaseRecord.evidence_counts same
    obtain ⟨-, -, -, stay⟩ := CaseRecord.evidence_keeps same
    have rail : ((s.rack.failNow s.store k (caseModel s.store c).header.rail .sag).slot k).rail = (s.rack.slot k).rail := by
      rw [Rack.evidence_slot evidence k]
    have ⟨_, _, queue, _, _, _, _⟩ := evidence
    refine ⟨_, _, d, (row s k uv false quiet use).trans (congrArg (fun r => Host.Outcome.next (s.withRack r))
      ((Rack.scan_sag s.store good low).trans (Rack.railSag_eq hc))), rfl, hd, ?_, fun j other => Rack.slot_dress_ne _ _ other, queue,
      rfl⟩
    rw [Rack.slot_dress_same, ← sags, ← stay, ← rail]
    unfold Dress.slot
    rw [hd]
    rfl
  · obtain ⟨c', record, state, count, -, -, -, -, -, -, tripped, -, -, units, -, -, -, -, -, -, pool, stamp, told, -⟩ :=
      Rack.trip_spec (st := s.store) hc run .trip rfl
    exact ⟨_, c', (row s k uv oc quiet use).trans (congrArg (fun r => Host.Outcome.next (s.withRack r))
      (Rack.scan_trips s.store on trips)), record, state, count, tripped, units, pool, stamp, told⟩
  · unfold railLevel setpoint
    dsimp only
    omega

end Sys2Proof.Machine
end

section
/-! The bench port: samples, HOLD, withdrawal and release (R203 to R211). -/

namespace Sys2Proof.Machine

/-! ## The row of a bench sample -/

/-- The bench after a sample (R203). -/
def Rack.benchSampled (r : Rack) (hold seize : Bool) : Rack := { r with bench := r.bench.sample hold seize }

theorem exec_benchRow {s : State} {i : Instr} {k : SlotIx} {hold seize : Bool} (quiet : s.quiet)
    (row : benchRow i = some (k, hold, seize)) :
    exec i s = .next (s.withRack (s.rack.benchSample s.store k hold seize)) := by
  have event : exec i s = .next (s.onRack fun st r => r.benchSample st k hold seize) := by
    unfold benchRow at row
    split at row
    · cases row; rfl
    · cases row; rfl
    · cases row; rfl
    · cases row; rfl
    · cases row
  rw [event, State.onRack_of_quiet quiet]

section Sample
variable (st : Store) {r : Rack} {k : SlotIx} {hold seize : Bool}

theorem Rack.benchSample_idle (idle : r.bench.state = .idle) :
    r.benchSample st k hold seize = (r.benchSampled hold seize).benchRequest st k := by
  unfold Rack.benchSample
  dsimp only
  have state : (r.bench.sample hold seize).state = .idle := idle
  rw [state]
  rfl

theorem Rack.benchSample_granted {j : SlotIx} (granted : r.bench.state = .granted j) :
    r.benchSample st k hold seize =
      if (r.bench.sample hold seize).hold || (r.bench.sample hold seize).seize then r.benchSampled hold seize
      else (r.benchSampled hold seize).releaseBench st j := by
  unfold Rack.benchSample
  dsimp only
  have state : (r.bench.sample hold seize).state = .granted j := granted
  rw [state]
  rfl

theorem Rack.benchSample_pending {j : SlotIx} (pending : r.bench.state = .pending j) :
    r.benchSample st k hold seize =
      if (r.bench.sample hold seize).hold || (r.bench.sample hold seize).seize then
        if !r.bench.seize && (r.bench.sample hold seize).seize && j == k then (r.benchSampled hold seize).takeSeize st k
        else r.benchSampled hold seize
      else (r.benchSampled hold seize).withdrawHold st j := by
  unfold Rack.benchSample
  dsimp only
  have state : (r.bench.sample hold seize).state = .pending j := pending
  rw [state]
  rfl

end Sample

/-! ## What follows keeps the debounced levels -/

/-- The benches differ in their state alone. -/
def Bench.sameLevels (b b' : Bench) : Prop := b' = { b with state := b'.state }

theorem Bench.sameLevels_trans {a b c : Bench} (h : Bench.sameLevels a b) (g : Bench.sameLevels b c) :
    Bench.sameLevels a c := by
  unfold Bench.sameLevels at *
  rw [g, h]

theorem Rack.levels_proceed (st : Store) (r : Rack) (k : SlotIx) : Bench.sameLevels r.bench (r.proceed st k).bench := by
  obtain ⟨-, -, bench, -⟩ := r.sameHouse_takeOrHoldAdvance st k
  have pending : Bench.sameLevels (r.takeOrHoldAdvance st k).bench (r.takeOrHoldAdvance st k).grantPending.bench := by
    unfold Rack.grantPending
    split
    · split
      · rfl
      · rfl
    · rfl
    · rfl
  obtain ⟨-, -, -, -, issued, -⟩ := Rack.rest_issue st (r.takeOrHoldAdvance st k).grantPending k
  obtain ⟨-, -, -, checked, -⟩ := Rack.rest_checkQuiesced (Rack.issue st (r.takeOrHoldAdvance st k).grantPending k)
  unfold Rack.proceed
  rw [checked, issued, ← bench]
  exact pending

theorem Rack.levels_benchSample (st : Store) (r : Rack) (k : SlotIx) (hold seize : Bool) :
    Bench.sameLevels (r.bench.sample hold seize) (r.benchSample st k hold seize).bench := by
  have seized : ∀ j, Bench.sameLevels (r.bench.sample hold seize) ((r.benchSampled hold seize).takeSeize st j).bench :=
    fun j => Bench.sameLevels_trans (b := (((r.benchSampled hold seize).modSlot j Slot.seizeAbort).benchGrant j).bench) rfl
      (Rack.levels_proceed st _ j)
  cases state : r.bench.state with
  | idle =>
    rw [Rack.benchSample_idle st state]
    unfold Rack.benchRequest Rack.takeHold
    split
    · split
      · exact seized k
      · split
        · split
          · rfl
          · rfl
        · rfl
    · rfl
  | granted j =>
    rw [Rack.benchSample_granted st state]
    split
    · rfl
    · exact Bench.sameLevels_trans (b := ((r.benchSampled hold seize).benchIdle.modLine j Line.release).noticeSlot j |>.bench) rfl
        (Rack.levels_proceed st _ j)
  | pending j =>
    rw [Rack.benchSample_pending st state]
    split
    · split
      · exact seized k
      · rfl
    · exact Bench.sameLevels_trans (b := (r.benchSampled hold seize).benchIdle.bench) rfl (Rack.levels_proceed st _ j)

/-! ## What follows keeps a slot told and its pointer not sure -/

/-- The slot stands in the notice set and its pointer copy is not sure. -/
def Rack.toldUnsure (r : Rack) (k : SlotIx) : Prop := r.notices.hasSlot k = true ∧ (r.slot k).line.sure = false

/-- An issue keeps the last end and whether the pointer is sure (R157, R160). -/
theorem Rack.ends_issue (st : Store) (r : Rack) (k : SlotIx) :
    ((Rack.issue st r k).slot k).line.sure = (r.slot k).line.sure ∧
      ((Rack.issue st r k).slot k).line.lastEnd = (r.slot k).line.lastEnd := by
  unfold Rack.issue
  cases (r.slot k).record with
  | none => exact ⟨rfl, rfl⟩
  | some c =>
    dsimp only
    split
    · split
      · exact ⟨rfl, rfl⟩
      · rw [Rack.slot_modLine_same]
        exact ⟨rfl, rfl⟩
      · rw [Rack.slot_modSlot_same]
        unfold issueProgram
        split
        · exact ⟨rfl, rfl⟩
        · dsimp only
          split
          all_goals exact ⟨rfl, rfl⟩
    · exact ⟨rfl, rfl⟩

theorem Rack.toldUnsure_issue (st : Store) {r : Rack} (j : SlotIx) {k : SlotIx} (h : r.toldUnsure k) :
    (Rack.issue st r j).toldUnsure k := by
  obtain ⟨told, unsure⟩ := h
  refine ⟨(r.hasSlot_issue st k j).trans told, ?_⟩
  by_cases same : k = j
  · subst same
    rw [(r.ends_issue st k).1, unsure]
  · rw [Rack.slot_issue_ne st r same, unsure]

theorem Rack.toldUnsure_takeGrant (st : Store) {r : Rack} (j : SlotIx) {k : SlotIx} (h : r.toldUnsure k) :
    (r.takeGrant st j).toldUnsure k := by
  obtain ⟨told, unsure⟩ := h
  refine ⟨r.hasSlot_takeGrant st k j told, ?_⟩
  by_cases same : k = j
  · subst same
    unfold Rack.takeGrant
    split
    · next waiting =>
      obtain ⟨c, hc, -⟩ := Slot.record_of_caseState waiting
      split
      · rw [(Rack.ends_issue st _ k).1]
        simp [unsure]
      · rw [Rack.slot_enterPowering st r k c hc]
        exact unsure
    · exact unsure
  · rw [Rack.slot_takeGrant_ne st r same, unsure]

theorem Rack.toldUnsure_setUnits {r : Rack} (j : SlotIx) (n : Nat) {k : SlotIx} (h : r.toldUnsure k) :
    (r.setUnits j n).toldUnsure k := by
  obtain ⟨told, unsure⟩ := h
  refine ⟨told, ?_⟩
  by_cases same : k = j
  · subst same
    rw [Rack.slot_setUnits_same]
    exact unsure
  · rw [Rack.slot_setUnits_ne _ _ same, unsure]

theorem Rack.toldUnsure_grantPassUpTo (st : Store) (n : Nat) {r : Rack} {k : SlotIx} (h : r.toldUnsure k) :
    (Rack.grantPassUpTo st n r).toldUnsure k := by
  induction n generalizing r with
  | zero => exact h
  | succ n ih =>
    unfold Rack.grantPassUpTo
    split
    · exact h
    · next e rest _ =>
      split
      · exact ih (Rack.toldUnsure_takeGrant st e.slot (Rack.toldUnsure_setUnits e.slot e.need (r := { r with queue := rest }) h))
      · exact h

theorem Rack.toldUnsure_endRun (st : Store) (r : Rack) (k : SlotIx) (cs : CaseState) : (r.endRun st k cs).toldUnsure k := by
  obtain ⟨own, -⟩ := Rack.endRun_spec st r k cs
  refine ⟨Rack.hasSlot_endRun st r k cs, ?_⟩
  rw [own]
  exact r.sure_dropRun k

/-- The advance of a told slot leaves it told, its pointer not sure. -/
theorem Rack.toldUnsure_stageAdvance (st : Store) {r : Rack} {k : SlotIx} (h : r.toldUnsure k) :
    (r.stageAdvance st k).toldUnsure k := by
  unfold Rack.stageAdvance
  split
  · exact h
  · next c _ =>
    obtain ⟨evidence, -, notices⟩ := r.stageClean_keeps st k c
    have clean : (r.stageClean st k c).toldUnsure k := by
      obtain ⟨told, unsure⟩ := h
      refine ⟨by rw [notices, told], ?_⟩
      rw [Rack.evidence_slot evidence k]
      exact unsure
    dsimp only
    split
    · exact Rack.toldUnsure_endRun st _ k _
    · next p _ =>
      have stay : ((r.stageClean st k c).nextStay st k (caseModel st c) p).toldUnsure k := by
        obtain ⟨told, unsure⟩ := clean
        refine ⟨told, ?_⟩
        rw [Rack.nextStay, Rack.slot_modWatch_same, Rack.slot_modRail_same, Rack.slot_beginStay_same]
        exact unsure
      have asked : ((((r.stageClean st k c).nextStay st k (caseModel st c) p).setUnits k 0).askUnits k
          ((caseModel st c).stage p.stage).units).toldUnsure k := by
        have none := Rack.toldUnsure_setUnits k 0 stay
        unfold Rack.askUnits
        split
        · exact Rack.toldUnsure_setUnits k 0 none
        · split
          · exact Rack.toldUnsure_setUnits k _ none
          · split
            · exact none
            · exact none
      have budget := Rack.toldUnsure_grantPassUpTo st ((((r.stageClean st k c).nextStay st k (caseModel st c) p).setUnits k
        0).askUnits k ((caseModel st c).stage p.stage).units).queue.length asked
      change (Rack.afterBudget (Rack.grantPassUpTo st _ _) k).toldUnsure k
      obtain ⟨told, unsure⟩ := budget
      unfold Rack.afterBudget
      split
      · refine ⟨by simp, ?_⟩
        rw [Rack.slot_modSeq_same, Rack.slot_enter_same]
        exact unsure
      · refine ⟨told, ?_⟩
        rw [Rack.slot_modSeq_same]
        exact unsure

theorem Rack.toldUnsure_proceed (st : Store) {r : Rack} {k : SlotIx} (h : r.toldUnsure k) :
    (r.proceed st k).toldUnsure k := by
  have advanced : (r.takeOrHoldAdvance st k).toldUnsure k := by
    unfold Rack.takeOrHoldAdvance
    dsimp only
    split
    · split
      · exact Rack.toldUnsure_stageAdvance st h
      · obtain ⟨told, unsure⟩ := h
        refine ⟨told, ?_⟩
        rw [Rack.slot_modStay_same]
        exact unsure
    · exact h
  have given : (r.takeOrHoldAdvance st k).grantPending.toldUnsure k := by
    obtain ⟨told, unsure⟩ := advanced
    refine ⟨Rack.hasSlot_grantPending _ k told, ?_⟩
    rcases (r.takeOrHoldAdvance st k).slot_grantPending k with own | ⟨-, own⟩
    · rw [own, unsure]
    · rw [own]
  obtain ⟨told, unsure⟩ := Rack.toldUnsure_issue st k given
  exact ⟨(Rack.hasSlot_checkQuiesced _ k).trans told, by rw [Rack.proceed, Rack.slot_checkQuiesced, unsure]⟩

end Sys2Proof.Machine
end

section
/-! A HOLD, its withdrawal and the release of the grant; a SEIZE (R98, R168, R185, R204 to R213). -/

namespace Sys2Proof.Machine

/-! ## A HOLD (R205, R206) -/

theorem Rack.slot_benchGrant (r : Rack) (k : SlotIx) :
    (r.benchGrant k).slot k = { r.slot k with line := { (r.slot k).line with state := .passed, sure := false } } := by
  rw [Rack.benchGrant, Rack.slot_noticeSlot, Rack.slot_modLine_same]
  rfl

section Request
variable (st : Store) {r : Rack} {k : SlotIx}

theorem Rack.benchRequest_unused (unused : r.inUse k = false) : r.benchRequest st k = r := by
  rw [Rack.benchRequest, if_neg (by simp [unused])]

theorem Rack.benchRequest_low (hold : r.bench.hold = false) (seize : r.bench.seize = false) : r.benchRequest st k = r := by
  unfold Rack.benchRequest
  split
  · rw [seize, if_neg (by decide), hold, if_neg (by decide)]
  · rfl

theorem Rack.benchRequest_hold (use : r.inUse k = true) (hold : r.bench.hold = true) (seize : r.bench.seize = false) :
    r.benchRequest st k = r.takeHold k := by
  rw [Rack.benchRequest, if_pos use, seize, if_neg (by decide), if_pos hold]

theorem Rack.benchRequest_seize (use : r.inUse k = true) (seize : r.bench.seize = true) :
    r.benchRequest st k = r.takeSeize st k := by
  rw [Rack.benchRequest, if_pos use, if_pos seize]

end Request

theorem Rack.isGranted_benchGrant (r : Rack) (j k : SlotIx) : (r.benchGrant k).isGranted j = (k == j) := rfl

/-- A HOLD is given at a boundary and waits for one elsewhere. -/
theorem Rack.takeHold_spec {r : Rack} (k : SlotIx) :
    (∀ j, j ≠ k → (r.takeHold k).slot j = r.slot j) ∧ ((r.takeHold k).slot k).record = (r.slot k).record ∧
    ((r.takeHold k).slot k).stamp = (r.slot k).stamp ∧ (r.takeHold k).queue = r.queue ∧
    (r.takeHold k).quiesce = r.quiesce ∧
    ((r.slot k).atBoundary = true →
      (r.takeHold k).bench.state = .granted k ∧ (r.takeHold k).bgrant = true ∧ (r.takeHold k).isGranted k = true ∧
      ((r.takeHold k).slot k).line.state = .passed ∧ ((r.takeHold k).slot k).line.sure = false ∧
      ((r.takeHold k).stopReasons k).grant = true ∧ (r.takeHold k).notices = (r.noticeSlot k).notices) ∧
    ((r.slot k).atBoundary = false →
      (r.takeHold k).bench.state = .pending k ∧ (r.takeHold k).bgrant = false ∧ ((r.takeHold k).stopReasons k).hold = true ∧
      (r.takeHold k).slot k = r.slot k ∧ (r.takeHold k).notices = r.notices) := by
  unfold Rack.takeHold
  cases (r.slot k).atBoundary with
  | true =>
    have own := r.slot_benchGrant k
    have granted : (r.benchGrant k).isGranted k = true := beq_self_eq_true k
    rw [if_pos rfl, own]
    exact ⟨fun j other => r.slot_benchGrant_ne other, rfl, rfl, rfl, rfl,
      fun _ => ⟨rfl, rfl, granted, rfl, rfl, granted, rfl⟩, fun h => (by cases h)⟩
  | false =>
    rw [if_neg (by decide)]
    exact ⟨fun _ _ => rfl, rfl, rfl, rfl, rfl, fun h => (by cases h),
      fun _ => ⟨rfl, rfl, beq_self_eq_true k, rfl, rfl⟩⟩

/-! ## A withdrawal (R207) -/

/-- A pending HOLD withdrawn with an exchange in flight changes nothing but the bench. -/
theorem Rack.withdrawHold_busy (st : Store) {r : Rack} {j : SlotIx} (busy : (r.slot j).line.exchange.isSome = true) :
    r.withdrawHold st j = r.benchIdle.checkQuiesced := by
  have boundary : (r.benchIdle.slot j).atBoundary = false := by
    obtain ⟨x, hx⟩ := Option.isSome_iff_exists.mp busy
    change (r.slot j).atBoundary = false
    rw [Slot.atBoundary, hx]
    rfl
  unfold Rack.withdrawHold Rack.proceed
  rw [Rack.takeOrHoldAdvance_still st r.benchIdle j (.inr (.inr boundary)), Rack.grantPending_idle r.benchIdle rfl,
    Rack.issue_busy st r.benchIdle j busy]

/-! ## The release (R211) -/

/-- The rack of a release before what follows. -/
def Rack.released (r : Rack) (j : SlotIx) : Rack := (r.benchIdle.modLine j Line.release).noticeSlot j

theorem Rack.slot_released {r : Rack} {j : SlotIx} (passed : (r.slot j).line.state = .passed) :
    (r.released j).slot j = { r.slot j with
      line := { (r.slot j).line with state := .idle, lastEnd := .within, sure := false } } := by
  have line : Line.release (r.slot j).line = { (r.slot j).line with state := .idle, lastEnd := .within, sure := false } := by
    rw [Line.release, passed]
  rw [Rack.released, Rack.slot_noticeSlot, Rack.slot_modLine_same]
  exact congrArg (fun l => { r.slot j with line := l }) line

theorem Rack.slot_released_ne (r : Rack) {j l : SlotIx} (other : l ≠ j) : (r.released j).slot l = r.slot l := by
  rw [Rack.released, Rack.slot_noticeSlot, Rack.slot_modLine_ne _ _ other]
  rfl

/-- A release keeps the bench IDLE. -/
theorem Rack.benchIdle_proceed (st : Store) {r : Rack} (k : SlotIx) (idle : r.bench.state = .idle) :
    (r.proceed st k).bench.state = .idle := by
  obtain ⟨-, -, bench, -⟩ := r.sameHouse_takeOrHoldAdvance st k
  have idle' : (r.takeOrHoldAdvance st k).bench.state = .idle := (congrArg Bench.state bench).trans idle
  obtain ⟨-, -, -, -, issued, -⟩ := Rack.rest_issue st (r.takeOrHoldAdvance st k) k
  obtain ⟨-, -, -, checked, -⟩ := Rack.rest_checkQuiesced (Rack.issue st (r.takeOrHoldAdvance st k) k)
  unfold Rack.proceed
  rw [Rack.grantPending_idle _ idle', checked, issued, idle']

section Release
variable (st : Store) {r : Rack} {j : SlotIx} (passed : (r.slot j).line.state = .passed)
include passed

theorem Rack.releaseBench_spec : (r.releaseBench st j).bench.state = .idle ∧
    ((r.releaseBench st j).slot j).line.sure = false ∧ (r.releaseBench st j).notices.hasSlot j = true := by
  have unsure : (r.released j).toldUnsure j := by
    refine ⟨by simp [Rack.released], ?_⟩
    rw [Rack.slot_released passed]
  obtain ⟨told, sure⟩ := Rack.toldUnsure_proceed st unsure
  exact ⟨Rack.benchIdle_proceed st j rfl, sure, told⟩

/-- A release with no advance to take. -/
theorem Rack.releaseBench_still (calm : (r.slot j).stay.draining = false) :
    ((r.releaseBench st j).slot j).record = (r.slot j).record ∧
    ((r.releaseBench st j).slot j).stamp = (r.slot j).stamp ∧
    ((r.releaseBench st j).slot j).line.lastEnd = .within ∧
    ((r.slot j).seq.mode = .off →
      ((r.releaseBench st j).slot j).line.state = .idle ∧ ((r.releaseBench st j).slot j).seq = (r.slot j).seq) ∧
    (r.releaseBench st j).notices.slots = r.notices.slots ||| BitVec.twoPow 16 j.val ∧
    ∀ l, l ≠ j → (r.releaseBench st j).slot l = r.slot l := by
  have own := Rack.slot_released passed
  have follows : r.releaseBench st j = (Rack.issue st (r.released j) j).checkQuiesced := by
    change (r.released j).proceed st j = _
    unfold Rack.proceed
    rw [Rack.takeOrHoldAdvance_still st (r.released j) j (.inl (by rw [own]; exact calm)), Rack.grantPending_idle _ rfl]
  obtain ⟨l, run, issued⟩ := Rack.slot_issue st (r.released j) j
  obtain ⟨-, lastEnd⟩ := Rack.ends_issue st (r.released j) j
  obtain ⟨-, -, -, -, -, notices⟩ := Rack.rest_issue st (r.released j) j
  obtain ⟨-, -, -, -, slots, -⟩ := Rack.rest_checkQuiesced (Rack.issue st (r.released j) j)
  rw [follows, Rack.slot_checkQuiesced]
  refine ⟨?_, ?_, ?_, fun off => ?_, ?_, fun l other => ?_⟩
  · rw [issued, own]
  · rw [issued, own]
  · rw [lastEnd, own]
  · rw [Rack.issue_off st _ j (by rw [own]; exact off), own]
    exact ⟨rfl, rfl⟩
  · rw [slots, notices]
    rfl
  · rw [Rack.slot_checkQuiesced, Rack.slot_issue_ne st _ other, Rack.slot_released_ne r other]

/-- A release that lets a due advance be taken. -/
theorem Rack.releaseBench_advances {c : CaseRecord} {p : Position} (due : r.advanceDue st j c p) (running : c.state = .running)
    (active : r.quiesce = .active) : r.advancedTo st (r.releaseBench st j) j c p := by
  have own := Rack.slot_released passed
  obtain ⟨hc, draining, program, boundary, clean, next, empty, room⟩ := due
  have free : ((r.released j).setUnits j 0).freeUnits = (r.setUnits j 0).freeUnits := by
    refine Rack.freeUnits_congr rfl fun l => ?_
    rw [Rack.units_setUnits, Rack.units_setUnits]
    by_cases same : l = j
    · rw [if_pos same, if_pos same]
    · rw [if_neg same, if_neg same, Rack.slot_released_ne r same]
  have due' : (r.released j).advanceDue st j c p := by
    refine ⟨by rw [own]; exact hc, draining, by rw [own]; exact program, by rw [own]; exact boundary, clean, next, empty, ?_⟩
    rw [free]
    exact room
  obtain ⟨advanced, -⟩ := Rack.proceed_due due' running active rfl
  rw [Rack.advancedTo, own] at advanced
  exact advanced

end Release

/-! ## The levels of the lines (R154, R169, R204) -/

theorem Line.level_passed {l : Line} (passed : l.state = .passed) (i : Nat) (outsideLow : Bool) :
    l.level i outsideLow = !outsideLow := by
  rw [Line.level, Line.drivesLow, passed]
  rfl

theorem Rack.passSwitch_none {r : Rack} (h : ∀ j, r.bench.state ≠ .granted j) : r.passSwitch = none ∧ r.bgrant = false := by
  unfold Rack.passSwitch Rack.bgrant
  cases state : r.bench.state with
  | idle => exact ⟨rfl, rfl⟩
  | pending j => exact ⟨rfl, rfl⟩
  | granted j => exact absurd state (h j)

/-- Settles O52. -/
theorem aHoldIsGrantedAtABoundaryAndLetGo : Obligations.AHoldIsGrantedAtABoundaryAndLetGo := by
  refine ⟨fun limit count level sample => ⟨fun same => same ▸ debounce_agree _ _ _, debounce_count, debounce_change⟩,
    fun s i k high seized b quiet row sampled => ?samples, fun r k i boardLow stationLow boards => ⟨fun granted => ?_,
      fun other => ?_, fun none => ?_⟩⟩
  case samples =>
    obtain rfl : b = s.rack.bench.sample high seized := sampled
    refine ⟨_, exec_benchRow quiet row, s.rack.levels_benchSample s.store k high seized, fun idle calm => ?ignored,
      fun j pending asks late => ?waits, fun j granted asks => ?keeps, fun idle use hold low => ?holds,
      fun j pending low low' busy => ?withdraws, fun j granted low low' passed => ?releases⟩
    case ignored =>
      rw [Rack.benchSample_idle s.store idle]
      rcases calm with unused | ⟨hold, seize⟩
      · exact Rack.benchRequest_unused s.store unused
      · exact Rack.benchRequest_low s.store hold seize
    case waits =>
      rw [Rack.benchSample_pending s.store pending, if_pos (Bool.or_eq_true_iff.mpr asks), if_neg ?_]
      · rfl
      · rcases late with high | low | other
        · rw [high]
          simp
        · rw [low]
          simp
        · simp [Ne.symm other]
    case keeps =>
      rw [Rack.benchSample_granted s.store granted, if_pos (Bool.or_eq_true_iff.mpr asks)]
      rfl
    case holds =>
      rw [Rack.benchSample_idle s.store idle,
        Rack.benchRequest_hold s.store (r := s.rack.benchSampled high seized) use hold low]
      exact Rack.takeHold_spec (r := s.rack.benchSampled high seized) k
    case withdraws =>
      rw [Rack.benchSample_pending s.store pending, if_neg (by rw [low, low']; decide),
        Rack.withdrawHold_busy s.store (r := s.rack.benchSampled high seized) busy]
      obtain ⟨-, -, -, bench, told, slots⟩ := Rack.rest_checkQuiesced (s.rack.benchSampled high seized).benchIdle
      exact ⟨by rw [bench]; rfl, slots, told⟩
    case releases =>
      rw [Rack.benchSample_granted s.store granted, if_neg (by rw [low, low']; decide)]
      obtain ⟨idle, unsure, told⟩ := Rack.releaseBench_spec s.store (r := s.rack.benchSampled high seized) passed
      refine ⟨idle, by rw [Rack.bgrant, idle], unsure, told, fun calm => ?_, fun c p due running active => ?_⟩
      · exact Rack.releaseBench_still s.store (r := s.rack.benchSampled high seized) passed calm
      · exact Rack.releaseBench_advances s.store (r := s.rack.benchSampled high seized) passed due running active
  · have joined := Rack.passSwitch_eq_some.mpr granted
    refine ⟨joined, by rw [Rack.bgrant, granted], Rack.snsLevel_joined granted i boardLow stationLow, ?_, fun passed => ?_⟩
    · rw [Rack.bsnsLevel, joined, Option.map_some, Rack.snsLevel_joined granted]
    · rw [Rack.snsLevel_joined granted, Line.level_passed passed]
  · exact ⟨fun joined => other (Rack.passSwitch_eq_some.mp joined), Rack.snsLevel_not_joined other i boardLow stationLow⟩
  · obtain ⟨open', low⟩ := Rack.passSwitch_none none
    refine ⟨open', low, ?_⟩
    rw [Rack.bsnsLevel, open', Option.map_none]

end Sys2Proof.Machine
end

section
/-! A SEIZE (R98, R168, R185, R208, R213). -/

namespace Sys2Proof.Machine

/-- Nothing is issued in a slot granted to the bench (R183). -/
theorem Rack.issue_granted (st : Store) {r : Rack} {k : SlotIx} (granted : r.isGranted k = true) : Rack.issue st r k = r := by
  unfold Rack.issue
  cases (r.slot k).record with
  | none => rfl
  | some c =>
    refine if_neg ?_
    have why : (r.stopReasons k).grant = true := granted
    cases mode : (r.slot k).seq.mode <;> simp [mayIssue, mode, why]

/-- The rack of a SEIZE before what follows. -/
def Rack.seized (r : Rack) (k : SlotIx) : Rack := (r.modSlot k Slot.seizeAbort).benchGrant k

theorem Rack.slot_seized (r : Rack) (k : SlotIx) : (r.seized k).slot k = { (r.slot k).seizeAbort with
    line := { (r.slot k).seizeAbort.line with state := .passed, sure := false } } := by
  rw [Rack.seized, Rack.slot_benchGrant, Rack.slot_modSlot_same]

theorem Rack.slot_seized_ne (r : Rack) {j k : SlotIx} (other : j ≠ k) : (r.seized k).slot j = r.slot j := by
  rw [Rack.seized, Rack.slot_benchGrant_ne _ other, Rack.slot_modSlot_ne _ _ other]

/-- What follows a SEIZE: a drain boundary it leaves is held, and the rack may be QUIESCED. -/
theorem Rack.takeSeize_eq (st : Store) (r : Rack) (k : SlotIx) :
    r.takeSeize st k = ((r.seized k).takeOrHoldAdvance st k).checkQuiesced ∧
      ((r.seized k).takeOrHoldAdvance st k = r.seized k ∨
        (r.seized k).takeOrHoldAdvance st k = (r.seized k).modStay k fun y => { y with heldAdvance := true }) := by
  have granted : (r.seized k).isGranted k = true := beq_self_eq_true k
  have held : (r.seized k).takeOrHoldAdvance st k = r.seized k ∨
      (r.seized k).takeOrHoldAdvance st k = (r.seized k).modStay k fun y => { y with heldAdvance := true } := by
    unfold Rack.takeOrHoldAdvance
    dsimp only
    split
    · exact .inr (if_neg fun ⟨_, _, free⟩ => free granted)
    · exact .inl rfl
  have bench : ((r.seized k).takeOrHoldAdvance st k).bench.state = .granted k := by
    rcases held with same | hold
    · rw [same]
      rfl
    · rw [hold]
      rfl
  have granted' : ((r.seized k).takeOrHoldAdvance st k).isGranted k = true := by
    rw [Rack.isGranted, bench]
    exact beq_self_eq_true k
  refine ⟨?_, held⟩
  change (r.seized k).proceed st k = _
  unfold Rack.proceed
  rw [Rack.grantPending_granted _ k bench, Rack.issue_granted st granted']

/-- The exchange in flight of a seized slot is aborted, and its program counter placed (R168, R185). -/
theorem Slot.seizeAbort_busy {sl : Slot} (busy : sl.line.exchange.isSome = true) :
    sl.seizeAbort = { sl with
      line := { sl.line with state := .idle, exchange := none, sure := false, lastEnd := .within }, seq := sl.seq.seized } := by
  obtain ⟨x, hx⟩ := Option.isSome_iff_exists.mp busy
  rw [Slot.seizeAbort, if_pos busy, Line.abort, hx]

theorem Slot.seizeAbort_free {sl : Slot} (free : sl.line.exchange = none) : sl.seizeAbort = sl := by
  rw [Slot.seizeAbort, free]
  exact if_neg (by decide)

theorem Sequencer.seized_spec (q : Sequencer) : q.seized.mode = q.mode ∧ q.seized.tickWait = q.tickWait ∧
    q.seized.runStart = none ∧ q.seized.lastExchange = none ∧
    (∀ n, q.runStart = some n → q.seized.step = n ∧ q.seized.index = 0) ∧
    (q.runStart = none → q.seized.step = q.step ∧ q.seized.index = q.index) := by
  unfold Sequencer.seized
  cases run : q.runStart with
  | none => exact ⟨rfl, rfl, rfl, rfl, fun n h => (by cases h), fun _ => ⟨rfl, rfl⟩⟩
  | some m => exact ⟨rfl, rfl, rfl, rfl, fun n h => ⟨Option.some.inj h, rfl⟩, fun h => (by cases h)⟩

theorem Slot.seizeAbort_keeps (sl : Slot) : sl.seizeAbort.record = sl.record ∧ sl.seizeAbort.stamp = sl.stamp ∧
    sl.seizeAbort.seq.mode = sl.seq.mode ∧ sl.seizeAbort.seq.tickWait = sl.seq.tickWait ∧
    (sl.seizeAbort.atBoundary = true ↔ sl.line.exchange.isSome = true ∨ sl.seq.runStart = none) := by
  obtain ⟨mode, wait, start, -⟩ := sl.seq.seized_spec
  by_cases busy : sl.line.exchange.isSome = true
  · rw [Slot.seizeAbort_busy busy]
    refine ⟨rfl, rfl, mode, wait, fun _ => .inl busy, fun _ => ?_⟩
    rw [Slot.atBoundary, start]
    rfl
  · have free : sl.line.exchange = none := by simpa using busy
    rw [Slot.seizeAbort_free free]
    refine ⟨rfl, rfl, rfl, rfl, ?_⟩
    simp [Slot.atBoundary, free]

/-- The sample that takes a SEIZE finds BSEIZE high. -/
theorem Bench.sample_seize {b : Bench} (high : Bool) (asks : b.seize = true ∨ b.seizeCount = 4) :
    (b.sample high true).seize = true ∧ (b.sample high true).seizeCount = 0 := by
  have sampled : debounce Config.benchSamples b.seize b.seizeCount true = (true, 0) := by
    cases level : b.seize with
    | true => exact debounce_agree _ _ _
    | false =>
      rcases asks with h | h
      · rw [level] at h
        cases h
      · exact debounce_change (by decide) (by rw [h]; decide)
  exact ⟨congrArg Prod.fst sampled, congrArg Prod.snd sampled⟩

/-- A slot of a rack that a seize has left, as the drain boundary is held or not. -/
theorem Rack.slot_takeSeize (st : Store) (r : Rack) (k : SlotIx) :
    (r.takeSeize st k).slot k = { (r.seized k).slot k with record := ((r.takeSeize st k).slot k).record } ∧
    (∀ j, j ≠ k → (r.takeSeize st k).slot j = r.slot j) ∧ (r.takeSeize st k).notices.slots = (r.noticeSlot k).notices.slots ∧
    (r.takeSeize st k).bench = { r.bench with state := .granted k } := by
  obtain ⟨follows, held⟩ := Rack.takeSeize_eq st r k
  obtain ⟨-, -, -, bench, slots, -⟩ := Rack.rest_checkQuiesced ((r.seized k).takeOrHoldAdvance st k)
  rw [follows, bench, slots, Rack.slot_checkQuiesced]
  rcases held with same | hold
  · rw [same]
    refine ⟨rfl, fun j other => ?_, rfl, rfl⟩
    rw [Rack.slot_checkQuiesced, Rack.slot_seized_ne r other]
  · rw [hold]
    refine ⟨by rw [Rack.slot_modStay_same], fun j other => ?_, rfl, rfl⟩
    rw [Rack.slot_checkQuiesced, Rack.slot_modStay_ne _ _ other, Rack.slot_seized_ne r other]

section Held
variable (st : Store) {r : Rack} {k : SlotIx}

theorem Rack.record_takeSeize_still (still : (r.slot k).stay.draining = false ∨ (r.slot k).seq.mode ≠ .program ∨
    (r.slot k).line.exchange = none ∧ (r.slot k).seq.runStart ≠ none) :
    ((r.takeSeize st k).slot k).record = (r.slot k).record := by
  obtain ⟨follows, -⟩ := Rack.takeSeize_eq st r k
  have own := r.slot_seized k
  obtain ⟨record, -, mode, -, boundary⟩ := (r.slot k).seizeAbort_keeps
  have stay : ((r.seized k).slot k).stay = (r.slot k).stay := by
    rw [own]
    unfold Slot.stay
    rw [record]
  have none : (r.seized k).takeOrHoldAdvance st k = r.seized k := by
    refine Rack.takeOrHoldAdvance_still st _ k ?_
    rw [stay, own]
    rcases still with calm | other | ⟨free, run⟩
    · exact .inl calm
    · exact .inr (.inl (by rw [mode]; exact other))
    · refine .inr (.inr ?_)
      rw [← Bool.not_eq_true]
      intro at'
      rcases boundary.mp at' with busy | start
      · rw [free] at busy
        cases busy
      · exact run start
  rw [follows, Rack.slot_checkQuiesced, none, own, record]

theorem Rack.record_takeSeize_holds {c : CaseRecord} (hc : (r.slot k).record = some c) (draining : c.stay.draining = true)
    (program : (r.slot k).seq.mode = .program)
    (reached : (r.slot k).line.exchange.isSome = true ∨ (r.slot k).seq.runStart = none) :
    ((r.takeSeize st k).slot k).record = some { c with stay := { c.stay with heldAdvance := true } } := by
  obtain ⟨follows, -⟩ := Rack.takeSeize_eq st r k
  have own := r.slot_seized k
  obtain ⟨record, -, mode, -, boundary⟩ := (r.slot k).seizeAbort_keeps
  have hc' : ((r.seized k).slot k).record = some c := by rw [own, record, hc]
  have holds : (r.seized k).takeOrHoldAdvance st k = (r.seized k).modStay k fun y => { y with heldAdvance := true } := by
    refine Rack.takeOrHoldAdvance_holds st (by rw [Slot.stay_of_record hc']; exact draining) ?_ ?_
      (.inr (.inr (beq_self_eq_true k)))
    · rw [own, mode, program]
    · rw [own]
      exact boundary.mpr reached
  rw [follows, Rack.slot_checkQuiesced, holds, Rack.slot_modStay_same, hc']
  rfl

end Held

/-- A SEIZE ends QUIESCING when the other slots are idle. -/
theorem Rack.takeSeize_quiesces (st : Store) {r : Rack} {k : SlotIx} (quiescing : r.quiesce = .quiescing)
    (idle : ∀ j, j ≠ k → r.inUse j = true → (r.slot j).atBoundary = true) :
    (r.takeSeize st k).quiesce = .quiesced ∧ (r.takeSeize st k).notices.flags = r.notices.flags ||| 1 := by
  obtain ⟨follows, held⟩ := Rack.takeSeize_eq st r k
  have all : ∀ r' : Rack, r' = r.seized k ∨ r' = (r.seized k).modStay k (fun y => { y with heldAdvance := true }) →
      r'.wide = r.wide ∧ r'.quiesce = r.quiesce ∧ r'.notices.flags = r.notices.flags ∧ r'.isGranted k = true ∧
      ∀ j, j ≠ k → r'.slot j = r.slot j := fun r' h => by
    rcases h with rfl | rfl
    · exact ⟨rfl, rfl, rfl, beq_self_eq_true k, fun j other => r.slot_seized_ne other⟩
    · refine ⟨rfl, rfl, rfl, beq_self_eq_true k, fun j other => ?_⟩
      rw [Rack.slot_modStay_ne _ _ other, Rack.slot_seized_ne r other]
  obtain ⟨wide, quiesce, flags, granted, others⟩ := all _ held
  rw [follows, Rack.checkQuiesced_idle (quiesce.trans quiescing) fun j use => ?_]
  · exact ⟨rfl, congrArg (· ||| 1) flags⟩
  · by_cases same : j = k
    · rw [same, Rack.isIdle, granted, Bool.true_or]
    · have use' : r.inUse j = true := by rwa [Rack.inUse, wide] at use
      rw [Rack.isIdle, others j same, idle j same use', Bool.or_true]

/-- What a SEIZE makes of its slot. -/
theorem Rack.takeSeize_spec (st : Store) (r : Rack) (k : SlotIx) :
    ((r.takeSeize st k).slot k).line.state = .passed ∧ ((r.takeSeize st k).slot k).line.sure = false ∧
    ((r.takeSeize st k).slot k).stamp = (r.slot k).stamp ∧
    ((r.takeSeize st k).slot k).seq.mode = (r.slot k).seq.mode ∧
    ((r.takeSeize st k).slot k).seq.tickWait = (r.slot k).seq.tickWait ∧
    ((r.slot k).line.exchange.isSome = true →
      ((r.takeSeize st k).slot k).line.exchange = none ∧ ((r.takeSeize st k).slot k).line.lastEnd = .within ∧
      ((r.takeSeize st k).slot k).seq.runStart = none ∧ ((r.takeSeize st k).slot k).seq.lastExchange = none ∧
      (∀ n, (r.slot k).seq.runStart = some n →
        ((r.takeSeize st k).slot k).seq.step = n ∧ ((r.takeSeize st k).slot k).seq.index = 0) ∧
      ((r.slot k).seq.runStart = none → ((r.takeSeize st k).slot k).seq.step = (r.slot k).seq.step ∧
        ((r.takeSeize st k).slot k).seq.index = (r.slot k).seq.index)) ∧
    ((r.slot k).line.exchange = none →
      (r.takeSeize st k).slot k = { r.slot k with
        record := ((r.takeSeize st k).slot k).record
        line := { (r.slot k).line with state := .passed, sure := false } }) := by
  obtain ⟨own, -⟩ := Rack.slot_takeSeize st r k
  obtain ⟨-, stamp, mode, wait, -⟩ := (r.slot k).seizeAbort_keeps
  rw [Rack.slot_seized] at own
  refine ⟨by rw [own], by rw [own], by rw [own]; exact stamp, by rw [own]; exact mode, by rw [own]; exact wait,
    fun busy => ?_, fun free => ?_⟩
  · rw [Slot.seizeAbort_busy busy] at own
    obtain ⟨-, -, start, last, inside, outside⟩ := (r.slot k).seq.seized_spec
    rw [own]
    exact ⟨rfl, rfl, start, last, inside, outside⟩
  · rwa [Slot.seizeAbort_free free] at own

/-- Settles O53. -/
theorem aSeizeTakesTheLineAtOnce : Obligations.ASeizeTakesTheLineAtOnce := by
  intro s k high quiet use asks
  have sampled : (s.rack.bench.sample high true).seize = true ∧ (s.rack.bench.sample high true).seizeCount = 0 :=
    Bench.sample_seize high (by
      rcases asks with ⟨-, h⟩ | ⟨-, -, h⟩
      · exact h
      · exact .inr h)
  obtain ⟨seize, count⟩ := sampled
  have free : ∀ j, s.rack.isGranted j = false := fun j => by
    rcases asks with ⟨idle, -⟩ | ⟨pending, -⟩
    · rw [Rack.isGranted, idle]
    · rw [Rack.isGranted, pending]
  have taken : s.rack.benchSample s.store k high true = (s.rack.benchSampled high true).takeSeize s.store k := by
    rcases asks with ⟨idle, -⟩ | ⟨pending, low, -⟩
    · rw [Rack.benchSample_idle s.store idle]
      exact Rack.benchRequest_seize s.store (r := s.rack.benchSampled high true) use seize
    · rw [Rack.benchSample_pending s.store pending, if_pos (by rw [seize, Bool.or_true]), if_pos (by rw [seize, low]; simp)]
  obtain ⟨-, others, told, bench⟩ := Rack.slot_takeSeize s.store (s.rack.benchSampled high true) k
  obtain ⟨passed, unsure, stamp, mode, wait, busy, unbusy⟩ := Rack.takeSeize_spec s.store (s.rack.benchSampled high true) k
  refine ⟨_, (exec_benchRow (i := .benchSeize k high) quiet rfl).trans
    (congrArg (fun r => Host.Outcome.next (s.withRack r)) taken), by rw [bench], by rw [bench]; exact seize,
    by rw [bench]; exact count, passed, unsure, fun still => ?_, fun c hc draining program reached => ?_, fun quiescing idle => ?_,
    stamp, mode, wait, busy, unbusy, told, others⟩
  · exact Rack.record_takeSeize_still s.store (r := s.rack.benchSampled high true) still
  · exact Rack.record_takeSeize_holds s.store (r := s.rack.benchSampled high true) hc draining program reached
  · refine Rack.takeSeize_quiesces s.store (r := s.rack.benchSampled high true) quiescing fun j other used => ?_
    have := idle j other used
    rwa [Rack.isIdle, free, Bool.false_or] at this

end Sys2Proof.Machine
end

section
/-! Characters on the sense line (R153 to R157, R163, R171, R174). -/

namespace Sys2Proof.Machine

/-! ## The rows of the line -/

theorem Rack.inLine_taken {r : Rack} {k : SlotIx} {state : LineState} {x : Exchange} (in' : (r.slot k).line.state = state)
    (hx : (r.slot k).line.exchange = some x) (event : Exchange → Rack) : r.inLine k state event = event x := by
  rw [Rack.inLine, if_pos in', hx]

theorem Rack.inLine_other {r : Rack} {k : SlotIx} {state : LineState} (other : (r.slot k).line.state ≠ state)
    (event : Exchange → Rack) : r.inLine k state event = r := by
  rw [Rack.inLine, if_neg other]

theorem exec_onRack {s : State} {i : Instr} {event : Store → Rack → Rack} (row : exec i s = .next (s.onRack event))
    (quiet : s.quiet) : exec i s = .next (s.withRack (event s.store s.rack)) := by
  rw [row, State.onRack_of_quiet quiet]

theorem exec_echoReceived {s : State} {k : SlotIx} {looks : List Bool} {char : LineChar} (quiet : s.quiet)
    (whole : receive looks = some char) :
    exec (.echoReceived k looks) s = .next (s.withRack (s.rack.echo s.store k char)) :=
  (exec_onRack (event := fun st r => r.onChar looks (r.echo st k)) rfl quiet).trans
    (congrArg (fun r => Host.Outcome.next (s.withRack r)) (Rack.onChar_some s.rack _ whole))

theorem exec_replyByteReceived {s : State} {k : SlotIx} {looks : List Bool} {char : LineChar} (quiet : s.quiet)
    (whole : receive looks = some char) :
    exec (.replyByteReceived k looks) s = .next (s.withRack (s.rack.reply s.store k char)) :=
  (exec_onRack (event := fun st r => r.onChar looks (r.reply st k)) rfl quiet).trans
    (congrArg (fun r => Host.Outcome.next (s.withRack r)) (Rack.onChar_some s.rack _ whole))

/-- A row of the line that is not taken. -/
theorem exec_onChar_same {s : State} {i : Instr} {looks : List Bool} {event : Store → Rack → LineChar → Rack}
    (row : exec i s = .next (s.onRack fun st r => r.onChar looks (event st r))) (quiet : s.quiet)
    (same : ∀ char, receive looks = some char → event s.store s.rack char = s.rack) : exec i s = .next s := by
  rw [row, State.onRack_of_quiet quiet]
  cases whole : receive looks with
  | none =>
    rw [Rack.onChar_none _ _ whole]
    rfl
  | some char =>
    rw [Rack.onChar_some _ _ whole, same char whole]
    rfl

/-! ## Echoes (R156, R157) -/

theorem Exchange.lastSent_of {x : Exchange} {sent : Byte} (some : 1 ≤ x.sent)
    (last : x.probe.chars[x.sent - 1]? = .some sent) : x.lastSent = .some sent := by
  rw [Exchange.lastSent, if_neg (by omega), last]

theorem LineChar.echoes_good (b : Byte) : LineChar.echoes ⟨b, evenParity b, true⟩ b = true := by
  simp [LineChar.echoes, LineChar.clean]

theorem Rack.echo_good (st : Store) {r : Rack} {k : SlotIx} {x : Exchange} {sent : Byte}
    (sending : (r.slot k).line.state = .send) (hx : (r.slot k).line.exchange = some x) (some : 1 ≤ x.sent)
    (last : x.probe.chars[x.sent - 1]? = .some sent) : r.echo st k ⟨sent, evenParity sent, true⟩ = r.goodEcho st k x := by
  rw [Rack.echo, Rack.inLine_taken sending hx, Exchange.lastSent_of some last]
  exact if_pos (LineChar.echoes_good sent)

/-! ## The bits of a character (R154, R155) -/

/-- Ten samples make a whole character. -/
theorem charOfSamples_long {samples : List Bool} (h : 10 ≤ samples.length) : ∃ char, charOfSamples samples = some char ∧
    (∀ i, i < 8 → samples[i]? = some (char.data.getLsbD i)) ∧ samples[8]? = some char.parity ∧ samples[9]? = some char.stop := by
  match samples, h with
  | b0 :: b1 :: b2 :: b3 :: b4 :: b5 :: b6 :: b7 :: parity :: stop :: rest, _ =>
    refine ⟨_, rfl, fun i hi => ?_, rfl, rfl⟩
    have bit := getLsbD_ofBoolListLE b0 b1 b2 b3 b4 b5 b6 b7 ⟨i, hi⟩
    rw [bit]
    interval_cases i
    all_goals rfl

/-- Data bits and parity bit hold an even count of high bits (R154). -/
theorem evenParity_even (b : Byte) : (((charBits b).drop 1).take 9).count true % 2 = 0 := by
  revert b; decide +kernel

theorem charBits_data (b : Byte) {i : Nat} (h : i < 8) : (charBits b)[i + 1]? = some (b.getLsbD i) := by
  interval_cases i
  all_goals rfl

/-! ## The level of the line (R153, R154, R166) -/

theorem Line.level_released {l : Line} (h : l.state = .idle ∨ l.state = .reply ∨ l.state = .settle ∨ l.state = .passed) (i : Nat)
    (boardLow : Bool) : l.level i boardLow = !boardLow := by
  rw [Line.level, Line.drivesLow]
  rcases h with h | h | h | h
  all_goals rw [h]; rfl

theorem Line.level_breaking {l : Line} (h : l.state = .breaking) (i : Nat) (boardLow : Bool) :
    (i < 22 → l.level i boardLow = false) ∧ (22 ≤ i → l.level i boardLow = !boardLow) := by
  rw [Line.level, Line.drivesLow, h]
  refine ⟨fun early => ?_, fun late => ?_⟩
  · rw [decide_eq_true early]
    rfl
  · rw [decide_eq_false (by omega), Bool.false_or]

theorem Line.drivesLow_send {l : Line} {x : Exchange} (h : l.state = .send) (hx : l.exchange = some x) (i : Nat) :
    l.drivesLow i = ((x.lastSent.bind fun b => (charBits b)[i]?) == some false) := by
  rw [Line.drivesLow, h, hx]
  rfl

/-- Between characters the part releases the line. -/
theorem Line.level_unsent {l : Line} {x : Exchange} (h : l.state = .send) (hx : l.exchange = some x) {i : Nat}
    (off : x.sent = 0 ∨ 11 ≤ i) (boardLow : Bool) : l.level i boardLow = !boardLow := by
  have silent : (x.lastSent.bind fun b => (charBits b)[i]?) = none := by
    rcases off with zero | late
    · rw [Exchange.lastSent, if_pos zero]
      rfl
    · cases x.lastSent with
      | none => rfl
      | some b => exact List.getElem?_eq_none (by simpa [charBits] using late)
  rw [Line.level, Line.drivesLow_send h hx, silent]
  rfl

/-- A character on its way is on the line bit by bit. -/
theorem Line.level_sent {l : Line} {x : Exchange} (h : l.state = .send) (hx : l.exchange = some x) {i : Nat} {b : Byte}
    {bit : Bool} (some : 1 ≤ x.sent) (last : x.probe.chars[x.sent - 1]? = .some b) (here : (charBits b)[i]? = .some bit) :
    l.level i false = bit := by
  rw [Line.level, Line.drivesLow_send h hx, Exchange.lastSent_of some last, Option.bind_some, here]
  cases bit <;> rfl

/-- Settles O54. -/
theorem charactersGoOutByEcho : Obligations.CharactersGoOutByEcho := by
  refine ⟨fun s k x sent quiet sending hx => ⟨fun unsent => ?spacing, fun looks some last good => ⟨fun more => ?nextChar,
    fun all replies => ?reply⟩⟩, fun s k looks quiet => ⟨fun none => ⟨?_, ?_⟩, fun other => ?_, fun other => ?_⟩,
    fun s k looks quiet _ => ?stray, fun b => ⟨rfl, rfl, fun i h => charBits_data b h, rfl, rfl, evenParity_even b,
    receive_charBits b⟩, fun looks => ⟨rfl, rfl, rfl, fun short => charOfSamples_short looks short, fun long =>
    charOfSamples_long long⟩, rfl, rfl, rfl, fun l i boardLow => ⟨by simp [Line.level], fun h => Line.level_released h i boardLow,
    fun h => Line.level_breaking h i boardLow, fun x h hx => ⟨fun off => Line.level_unsent h hx off boardLow,
    fun b bit some last here => Line.level_sent h hx some last here⟩⟩⟩
  case spacing =>
    have own := s.rack.slot_modLine_same k fun l => { l with lastEnd := if l.lastEnd = .within then .passed else l.lastEnd }
    have ended : s.rack.spacingEnd k = (s.rack.modLine k fun l =>
        { l with lastEnd := if l.lastEnd = .within then .passed else l.lastEnd }).modLine k
          (Line.setExchange { x with sent := 1 }) := by
      unfold Rack.spacingEnd
      dsimp only
      rw [Rack.inLine_taken (by rw [own]; exact sending) (by rw [own]; exact hx), if_pos unsent]
    refine ⟨_, (exec_onRack (i := .exchangeSpacingEnd k) (event := fun _ r => r.spacingEnd k) rfl quiet).trans
      (congrArg (fun r => Host.Outcome.next (s.withRack r)) ended), ?_,
      Rack.onlySlot_trans (s.rack.onlySlot_modLine k _) (Rack.onlySlot_modLine _ k _), rfl⟩
    rw [Rack.slot_modLine_same, own]
    rfl
  case nextChar =>
    refine ⟨_, (exec_echoReceived quiet good).trans (congrArg (fun r => Host.Outcome.next (s.withRack r))
      ((Rack.echo_good s.store sending hx some last).trans (if_pos more))), s.rack.slot_modLine_same k _,
      s.rack.onlySlot_modLine k _, rfl⟩
  case reply =>
    have awaits : s.rack.goodEcho s.store k x = s.rack.modLine k fun l => { l with state := .reply } := by
      rw [Rack.goodEcho, if_neg (by omega), if_neg (by omega)]
    refine ⟨_, (exec_echoReceived quiet good).trans (congrArg (fun r => Host.Outcome.next (s.withRack r))
      ((Rack.echo_good s.store sending hx some last).trans awaits)), s.rack.slot_modLine_same k _,
      s.rack.onlySlot_modLine k _, rfl⟩
  case stray => exact congrArg Host.Outcome.next (State.settled_of_quiet quiet)
  · exact exec_onChar_same (i := .echoReceived k looks) (event := fun st r => r.echo st k) rfl quiet
      fun char whole => by rw [none] at whole; cases whole
  · exact exec_onChar_same (i := .replyByteReceived k looks) (event := fun st r => r.reply st k) rfl quiet
      fun char whole => by rw [none] at whole; cases whole
  · exact exec_onChar_same (i := .echoReceived k looks) (event := fun st r => r.echo st k) rfl quiet
      fun char _ => Rack.inLine_other other _
  · exact exec_onChar_same (i := .replyByteReceived k looks) (event := fun st r => r.reply st k) rfl quiet
      fun char _ => Rack.inLine_other other _

end Sys2Proof.Machine
end

section
/-! Failed attempts, the BREAK and the SETTLE that follow them (R156, R157, R163 to R167, R185 to R187, R189). -/

namespace Sys2Proof.Machine

/-! ## A failed attempt accuses (R166, R186) -/

/-- The symptom of the FAIL that a failed attempt hands. -/
def ExchangeResult.symptom? : ExchangeResult → Option Symptom
  | .noecho => some .noecho
  | .parity => some .parity
  | .silent => some .silent
  | .ok | .aborted => none

/-- The component that a failed attempt accuses. -/
def failedComponent (m : Model) (x : Exchange) (result : ExchangeResult) : Nat := m.attributed (x.record 0 result)

theorem Rack.failAttempt_eq {st : Store} {r : Rack} {k : SlotIx} {c : CaseRecord} (hc : (r.slot k).record = some c)
    (x : Exchange) {result : ExchangeResult} {y : Symptom} (fails : result.symptom? = some y) :
    r.failAttempt st k x result =
      (r.failNow st k (failedComponent (caseModel st c) x result) y).modLine k Line.fail := by
  have judged : r.handResult st k (r.resultOf st k x result) =
      r.failNow st k (failedComponent (caseModel st c) x result) y := by
    unfold Rack.handResult
    rw [hc]
    cases result with
    | ok => cases fails
    | aborted => cases fails
    | noecho => cases fails; rfl
    | parity => cases fails; rfl
    | silent => cases fails; rfl
  rw [Rack.failAttempt, judged]

/-- A NOECHO and every failure of a HAIL accuse the path. -/
theorem failedComponent_path (m : Model) (x : Exchange) {result : ExchangeResult}
    (h : result = .noecho ∨ x.probe = .hail) : failedComponent m x result = m.header.path := by
  rcases h with rfl | hail
  · rfl
  · unfold failedComponent Model.attributed Exchange.record
    rw [hail]
    cases result <;> rfl

/-- A PARITY or SILENT of a PEEK accuses what covers its target. -/
theorem failedComponent_peek (m : Model) {x : Exchange} {result : ExchangeResult} {asked sent : Form} {t : Addr}
    (peek : x.probe = .peek asked sent t) (other : result ≠ .noecho) :
    (∀ n w, m.lookup t = some (n, w) → failedComponent m x result = n) ∧
    (m.lookup t = none → failedComponent m x result = m.header.path) := by
  have covering : failedComponent m x result = m.covering t := by
    unfold failedComponent Model.attributed Exchange.record
    rw [peek]
    cases result with
    | noecho => exact absurd rfl other
    | ok => rfl
    | parity => rfl
    | silent => rfl
    | aborted => rfl
  rw [covering, Model.covering]
  exact ⟨fun n w found => by rw [found], fun none => by rw [none]⟩

theorem LineChar.echoes_bad {char : LineChar} {sent : Byte}
    (bad : char.data ≠ sent ∨ char.parity ≠ evenParity sent ∨ char.stop = false) : LineChar.echoes char sent = false := by
  rw [← Bool.not_eq_true]
  intro good
  simp only [LineChar.echoes, LineChar.clean, Bool.and_eq_true, beq_iff_eq] at good
  obtain ⟨data, parity, stop⟩ := good
  rcases bad with h | h | h
  · exact h data
  · exact h (data ▸ parity)
  · rw [h] at stop
    cases stop

theorem LineChar.clean_bad {char : LineChar} (bad : char.parity ≠ evenParity char.data ∨ char.stop = false) :
    LineChar.clean char = false := by
  rw [← Bool.not_eq_true]
  intro good
  simp only [LineChar.clean, Bool.and_eq_true, beq_iff_eq] at good
  obtain ⟨parity, stop⟩ := good
  rcases bad with h | h
  · exact h parity
  · rw [h] at stop
    cases stop

/-- The characters of an attempt are at most five (R157). -/
theorem Probe.length_chars (p : Probe) : p.chars.length ≤ 5 := by
  cases p with
  | hail => decide
  | peek asked sent t => cases sent <;> simp [Probe.chars, addrBytes]
  | poke asked sent t d => cases sent <;> simp [Probe.chars, addrBytes]

theorem Exchange.final_iff (x : Exchange) (retries : Nat) (result : ExchangeResult) :
    (x.record retries result).final = true ↔ result = .ok ∨ result = .aborted ∨ 1 + retries ≤ x.attempt := by
  unfold Exchange.record Exchange.isFinal Exchange.retryFollows
  cases result <;> simp

/-- Settles O55. -/
theorem aFailedAttemptAccusesAndBreaks : Obligations.AFailedAttemptAccusesAndBreaks := by
  refine ⟨fun s k c x i sent char looks quiet whole hc hx failed => ?_, fun x retries result => ⟨rfl, rfl, rfl,
    x.final_iff retries result, rfl, x.probe.length_chars, fun hail => ?_, fun st r k c => Rack.judgeResult_aborted ..⟩⟩
  · have accuses (result : ExchangeResult) (y : Symptom) (fails : result.symptom? = some y)
        (row : exec i s = .next (s.withRack (s.rack.failAttempt s.store k x result)))
        (send : (s.rack.slot k).line.state = .send → y = .noecho)
        (reply : (s.rack.slot k).line.state = .reply → y = if i = .replyTimeout k then Symptom.silent else Symptom.parity) :
        ∃ (r : Rack) (symptom : Symptom) (component : Nat), exec i s = .next (s.withRack r) ∧
          (r.slot k).line = { (s.rack.slot k).line with state := .breaking, sure := false } ∧
          (r.slot k).seq = (s.rack.slot k).seq ∧ (r.slot k).units = (s.rack.slot k).units ∧
          r = (s.rack.failNow s.store k component symptom).modLine k
            (fun l => { l with state := .breaking, sure := false }) ∧
          ((s.rack.slot k).line.state = .send → symptom = .noecho) ∧
          ((s.rack.slot k).line.state = .reply →
            symptom = if i = .replyTimeout k then Symptom.silent else Symptom.parity) ∧
          (symptom = .noecho ∨ x.probe = .hail → component = (caseModel s.store c).header.path) ∧
          ∀ asked sent t, x.probe = .peek asked sent t → symptom ≠ .noecho →
            (∀ n w, (caseModel s.store c).lookup t = some (n, w) → component = n) ∧
            ((caseModel s.store c).lookup t = none → component = (caseModel s.store c).header.path) := by
      have evidence := s.rack.evidence_failNow s.store k (failedComponent (caseModel s.store c) x result) y
      have own := Rack.evidence_slot evidence k
      have noecho : y = .noecho ↔ result = .noecho := by
        cases result <;> cases fails <;> simp
      refine ⟨_, y, failedComponent (caseModel s.store c) x result,
        row.trans (congrArg (fun r => Host.Outcome.next (s.withRack r)) (Rack.failAttempt_eq hc x fails)), ?_, ?_, ?_, rfl, send,
        reply, fun h => failedComponent_path _ x (h.imp_left noecho.mp),
        fun asked sent t peek other => failedComponent_peek _ peek fun h => other (noecho.mpr h)⟩
      · rw [Rack.slot_modLine_same, own]
        rfl
      · rw [Rack.slot_modLine_same, own]
      · rw [Rack.slot_modLine_same, own]
    rcases failed with ⟨sending, some, last, rfl | ⟨rfl, bad⟩⟩ | ⟨replying, rfl | ⟨rfl, bad⟩⟩
    · have row : s.rack.echoTimeout s.store k = s.rack.failAttempt s.store k x .noecho := by
        rw [Rack.echoTimeout, Rack.inLine_taken sending hx, if_neg (by omega)]
      refine accuses .noecho .noecho rfl ?_ (fun _ => rfl) fun other => ?_
      · rw [← row]
        exact exec_onRack (i := .echoTimeout k) (event := fun st r => r.echoTimeout st k) rfl quiet
      · rw [sending] at other
        cases other
    · have row : s.rack.echo s.store k char = s.rack.failAttempt s.store k x .noecho := by
        rw [Rack.echo, Rack.inLine_taken sending hx, Exchange.lastSent_of some last]
        exact if_neg (by rw [LineChar.echoes_bad bad]; decide)
      refine accuses .noecho .noecho rfl ?_ (fun _ => rfl) fun other => ?_
      · rw [← row]
        exact exec_echoReceived quiet whole
      · rw [sending] at other
        cases other
    · have row : s.rack.replyTimeout s.store k = s.rack.failAttempt s.store k x .silent := by
        rw [Rack.replyTimeout, Rack.inLine_taken replying hx]
      refine accuses .silent .silent rfl ?_ (fun other => ?_) fun _ => (if_pos rfl).symm
      · rw [← row]
        exact exec_onRack (i := .replyTimeout k) (event := fun st r => r.replyTimeout st k) rfl quiet
      · rw [replying] at other
        cases other
    · have row : s.rack.reply s.store k char = s.rack.failAttempt s.store k x .parity := by
        rw [Rack.reply, Rack.inLine_taken replying hx]
        exact if_neg (by rw [LineChar.clean_bad bad]; decide)
      refine accuses .parity .parity rfl ?_ (fun other => ?_) fun _ => (if_neg fun h => by cases h).symm
      · rw [← row]
        exact exec_replyByteReceived quiet whole
      · rw [replying] at other
        cases other
  · unfold Exchange.record Exchange.faultPlace
    rw [hail]
    exact ⟨rfl, rfl⟩

end Sys2Proof.Machine
end

section
/-! The BREAK, the SETTLE and the next attempt (R166, R167, R189), and what the steps of a program send (R70, R71, R157,
R160, R162, R177, R178, R181, R182). -/

namespace Sys2Proof.Machine

/-! ## A HAIL that failed waits for a tick (R189) -/

theorem Rack.issue_waiting (st : Store) {r : Rack} {k : SlotIx} (hail : (r.slot k).seq.mode = .hail)
    (wait : (r.slot k).seq.tickWait = true) : Rack.issue st r k = r := by
  unfold Rack.issue
  cases (r.slot k).record with
  | none => rfl
  | some c =>
    refine if_neg ?_
    rw [mayIssue, hail, wait]
    simp

/-- The row of a grant changes nothing of a slot but its line's state and pointer. -/
theorem Rack.slot_grantPending_line (r : Rack) (k : SlotIx) :
    ∃ l : Line, r.grantPending.slot k = { r.slot k with line := l } ∧ l.exchange = (r.slot k).line.exchange := by
  rcases r.slot_grantPending k with same | ⟨-, granted⟩
  · exact ⟨_, same, rfl⟩
  · exact ⟨_, granted, rfl⟩

theorem Rack.slot_proceed_waiting (st : Store) {r : Rack} {k : SlotIx} (hail : (r.slot k).seq.mode = .hail)
    (wait : (r.slot k).seq.tickWait = true) :
    ∃ l : Line, (r.proceed st k).slot k = { r.slot k with line := l } ∧ l.exchange = (r.slot k).line.exchange := by
  obtain ⟨l, own, exchange⟩ := r.slot_grantPending_line k
  refine ⟨l, ?_, exchange⟩
  unfold Rack.proceed
  rw [Rack.takeOrHoldAdvance_still st r k (.inr (.inl (by simp [hail]))),
    Rack.issue_waiting st (by rw [own, hail]) (by rw [own, wait]), Rack.slot_checkQuiesced, own]

/-- The retry of a probe goes out in the AT form. -/
theorem Probe.retry_spec (p : Probe) :
    (p = .hail → p.retry = .hail) ∧ (∀ asked sent t, p = .peek asked sent t → p.retry = .peek asked .atForm t) ∧
    ∀ asked sent t d, p = .poke asked sent t d → p.retry = .poke asked .atForm t d :=
  ⟨fun h => by rw [h]; rfl, fun _ _ _ h => by rw [h]; rfl, fun _ _ _ _ h => by rw [h]; rfl⟩

section SettleEnd
variable {st : Store} {r : Rack} {k : SlotIx} {c : CaseRecord} {x : Exchange} (hc : (r.slot k).record = some c)
  (settle : (r.slot k).line.state = .settle) (hx : (r.slot k).line.exchange = some x)
include hc settle hx

theorem Rack.settleEnd_retries (again : x.attempt ≤ (caseModel st c).header.retries) :
    r.settleEnd st k = r.modLine k fun l => Line.setExchange x.nextAttempt { l with state := .send } := by
  have follows : x.retryFollows (r.model st k).header.retries = true := by
    rw [Rack.model_of_record hc, Exchange.retryFollows, decide_eq_true_iff]
    omega
  rw [Rack.settleEnd, Rack.inLine_taken settle hx, if_pos follows]

theorem Rack.settleEnd_fails (last : (caseModel st c).header.retries < x.attempt) :
    r.settleEnd st k = r.exchangeFailed st k := by
  have follows : ¬ x.retryFollows (r.model st k).header.retries = true := by
    rw [Rack.model_of_record hc, Exchange.retryFollows, decide_eq_true_iff]
    omega
  rw [Rack.settleEnd, Rack.inLine_taken settle hx, if_neg follows]

end SettleEnd

/-- Settles O57. -/
theorem aBreakSettlesAndRetries : Obligations.ABreakSettlesAndRetries := by
  refine fun s k c x quiet hc hx => ⟨fun breaking => ?_, fun settle again => ?_, fun settle last hail => ?_⟩
  · have row : s.rack.breakEnd k = s.rack.modLine k fun l => { l with state := .settle } :=
      Rack.inLine_taken breaking hx _
    refine ⟨_, exec_onRack (i := .breakEnd k) (event := fun _ r => r.breakEnd k) rfl quiet, ?_⟩
    rw [row]
    exact ⟨s.rack.slot_modLine_same k _, s.rack.onlySlot_modLine k _, rfl⟩
  · obtain ⟨hail, peek, poke⟩ := x.probe.retry_spec
    refine ⟨_, x.probe.retry, exec_onRack (i := .settleEnd k) (event := fun st r => r.settleEnd st k) rfl quiet, hail, peek,
      poke, ?_⟩
    rw [Rack.settleEnd_retries hc settle hx again]
    exact ⟨s.rack.slot_modLine_same k _, s.rack.onlySlot_modLine k _, rfl⟩
  · have own : ((s.rack.modLine k Line.finish).modSeq k fun q => { q with tickWait := true, waitTickSeen := false }).slot k =
        { s.rack.slot k with
          line := Line.finish (s.rack.slot k).line
          seq := { (s.rack.slot k).seq with tickWait := true, waitTickSeen := false } } := by
      rw [Rack.slot_modSeq_same, Rack.slot_modLine_same]
    have failed : s.rack.exchangeFailed s.store k =
        ((s.rack.modLine k Line.finish).modSeq k fun q => { q with tickWait := true, waitTickSeen := false }).proceed
          s.store k := by
      unfold Rack.exchangeFailed
      dsimp only
      rw [if_pos (by rw [Rack.slot_modLine_same]; exact hail)]
    obtain ⟨l, after, exchange⟩ := Rack.slot_proceed_waiting s.store (r := (s.rack.modLine k Line.finish).modSeq k
      fun q => { q with tickWait := true, waitTickSeen := false }) (k := k) (by rw [own]; exact hail) (by rw [own])
    refine ⟨_, exec_onRack (i := .settleEnd k) (event := fun st r => r.settleEnd st k) rfl quiet, ?_⟩
    rw [Rack.settleEnd_fails hc settle hx last, failed, after, own]
    refine ⟨rfl, hc, exchange.trans ?_⟩
    rw [own]
    rfl

/-! ## What a step sends (R70, R178) -/

theorem Step.patternByte_spec (p : Step) (k : Nat) :
    (p.pattern = 0 → p.patternByte k = p.value) ∧
    (p.pattern = 1 → p.patternByte k = BitVec.ofNat 8 (p.start.toNat + k)) ∧
    (p.pattern = 2 → p.patternByte k = ~~~ BitVec.ofNat 8 (p.start.toNat + k)) ∧
    (p.pattern = 3 → p.patternByte k = BitVec.ofNat 8 (2 ^ (k % 8))) := by
  have low : lowByte (p.addr k) = BitVec.ofNat 8 (p.start.toNat + k) := by
    apply BitVec.eq_of_toNat_eq
    simp only [lowByte, Step.addr, BitVec.toNat_setWidth, BitVec.toNat_add, BitVec.toNat_ofNat]
    omega
  refine ⟨fun h => ?_, fun h => ?_, fun h => ?_, fun h => ?_⟩
  · rw [Step.patternByte, h]
    rfl
  · rw [← low, Step.patternByte, h]
    rfl
  · rw [← low, Step.patternByte, h]
    rfl
  · rw [Step.patternByte, h]
    change 1#8 <<< (k % 8) = _
    apply BitVec.eq_of_toNat_eq
    simp [BitVec.toNat_shiftLeft, Nat.shiftLeft_eq]

/-! ## What covers an address (R71, R162) -/

/-- The range of a component holds an address. -/
def Component.holds (x : Component) (addr : Addr) : Prop :=
  ∃ first last, x.range = some (first, last) ∧ first ≤ addr ∧ addr ≤ last

theorem lookupFrom_held {addr : Addr} {x : Component} (h : x.holds addr) (n : Nat) (xs : List Component) :
    lookupFrom addr n (x :: xs) = some (n, x.waitClass) := by
  obtain ⟨first, last, range, low, high⟩ := h
  rw [lookupFrom, range]
  exact if_pos (by simp [low, high])

theorem lookupFrom_unheld {addr : Addr} {x : Component} (h : ¬ x.holds addr) (n : Nat) (xs : List Component) :
    lookupFrom addr n (x :: xs) = lookupFrom addr (n + 1) xs := by
  rw [lookupFrom]
  cases range : x.range with
  | none => rfl
  | some ends =>
    obtain ⟨first, last⟩ := ends
    refine if_neg fun inside => h ⟨first, last, range, ?_⟩
    simpa using inside

theorem lookupFrom_none {addr : Addr} (n : Nat) {l : List Component} (h : ∀ x ∈ l, ¬ x.holds addr) :
    lookupFrom addr n l = none := by
  induction l generalizing n with
  | nil => rfl
  | cons x xs ih =>
    rw [lookupFrom_unheld (h x (by simp))]
    exact ih _ fun y hy => h y (by simp [hy])

/-- Components apart from each other do not hold one address. -/
theorem Component.not_holds_of_apart {x y : Component} {addr : Addr} (apart : x.apart y) (h : y.holds addr) :
    ¬ x.holds addr := by
  rintro ⟨a, b, range, low, high⟩
  obtain ⟨c, d, range', low', high'⟩ := h
  rcases apart a b c d range range' with below | above
  · exact absurd (BitVec.le_trans low' high) (BitVec.not_le.mpr below)
  · exact absurd (BitVec.le_trans low high') (BitVec.not_le.mpr above)

theorem lookupFrom_at {addr : Addr} {x : Component} {l : List Component} (apart : l.Pairwise Component.apart) (n : Nat)
    {i : Nat} (at' : l[i]? = some x) (h : x.holds addr) : lookupFrom addr n l = some (n + i, x.waitClass) := by
  induction l generalizing n i with
  | nil => cases at'
  | cons y ys ih =>
    obtain ⟨first, rest⟩ := List.pairwise_cons.mp apart
    cases i with
    | zero =>
      cases at'
      exact lookupFrom_held h n ys
    | succ i =>
      rw [lookupFrom_unheld (Component.not_holds_of_apart (first x (List.mem_of_getElem? at')) h), ih rest (n + 1) at',
        show n + 1 + i = n + (i + 1) by omega]

theorem Model.waitClass_none {m : Model} {addr : Addr} (h : m.lookup addr = none) : m.waitClass addr = 0 := by
  rw [Model.waitClass, h]

theorem Model.waitClass_some {m : Model} {addr : Addr} {i w : Nat} (h : m.lookup addr = some (i, w)) :
    m.waitClass addr = w := by
  rw [Model.waitClass, h]

/-! ## The issue (R157, R160, R177, R181, R182) -/

theorem Line.issueAccess_peek (l : Line) (m : Model) (asked : Form) (addr : Addr) :
    l.issueAccess m asked addr none = { l with
      state := .send, pointer := l.target asked addr
      exchange := some ⟨.peek asked (l.formSent asked) (l.target asked addr), m.waitClass (l.target asked addr), 1,
        if l.lastEnd = .within then 0 else 1, []⟩ } := rfl

theorem Line.issueAccess_poke (l : Line) (m : Model) (asked : Form) (addr : Addr) (d : Byte) :
    l.issueAccess m asked addr (some d) = { l with
      state := .send, pointer := l.target asked addr
      exchange := some ⟨.poke asked (l.formSent asked) (l.target asked addr) d, m.waitClass (l.target asked addr), 1,
        if l.lastEnd = .within then 0 else 1, []⟩ } := rfl

/-- What the controller of a slot takes for a step at its present exchange. -/
def Step.sends (m : Model) (sl : Slot) (p : Step) : Line :=
  match p.kindOf with
  | .hail => sl.line.issueHail
  | .peek => sl.line.issueAccess m sl.seq.formAsked (p.addr sl.seq.index) none
  | .poke => sl.line.issueAccess m sl.seq.formAsked (p.addr sl.seq.index) (some (p.patternByte sl.seq.index))

/-- A bound step at its first exchange begins a run. -/
def Step.runFrom (q : Sequencer) (p : Step) : Option Nat :=
  if p.bound = 0 ∧ q.index = 0 ∧ q.runStart = none then some q.step else q.runStart

theorem issueProgram_step {st : Store} {c : CaseRecord} {sl : Slot} {p : Step} (h : currentStep st c sl.seq = some p) :
    issueProgram st c sl =
      { sl with seq := { sl.seq with runStart := p.runFrom sl.seq }, line := p.sends (caseModel st c) sl } := by
  unfold issueProgram
  rw [h]
  dsimp only
  congr 1
  have bound : (p.isBound = true ∧ sl.seq.index = 0 ∧ sl.seq.runStart = none) ↔
      (p.bound = 0 ∧ sl.seq.index = 0 ∧ sl.seq.runStart = none) := by rw [Step.isBound, beq_iff_eq]
  rw [Step.runFrom]
  by_cases begins : p.bound = 0 ∧ sl.seq.index = 0 ∧ sl.seq.runStart = none
  · rw [if_pos (bound.mpr begins), if_pos begins]
  · rw [if_neg (mt bound.mp begins), if_neg begins]

theorem Step.sends_keeps (m : Model) (sl : Slot) (p : Step) :
    (p.sends m sl).state = .send ∧ (p.sends m sl).sure = sl.line.sure ∧ (p.sends m sl).lastEnd = sl.line.lastEnd := by
  unfold Step.sends
  cases p.kindOf with
  | hail => exact ⟨rfl, rfl, rfl⟩
  | peek => exact ⟨rfl, rfl, rfl⟩
  | poke => exact ⟨rfl, rfl, rfl⟩

/-- An exchange that continues the last one asks for the ON form at the next address; any other the AT form. -/
theorem Line.asks (l : Line) (q : Sequencer) (p : Step) :
    (1 ≤ q.index ∧ q.lastExchange = some (q.step, q.index - 1) →
      q.formAsked = .onForm ∧ l.target q.formAsked (p.addr q.index) = l.pointer + 1 ∧
        l.formSent q.formAsked = if l.sure then .onForm else .atForm) ∧
    (¬(1 ≤ q.index ∧ q.lastExchange = some (q.step, q.index - 1)) →
      q.formAsked = .atForm ∧ l.target q.formAsked (p.addr q.index) = p.start + BitVec.ofNat 24 q.index ∧
        l.formSent q.formAsked = .atForm) := by
  refine ⟨fun h => ?_, fun h => ?_⟩
  · rw [Sequencer.formAsked, if_pos h]
    exact ⟨rfl, rfl, rfl⟩
  · rw [Sequencer.formAsked, if_neg h]
    exact ⟨rfl, rfl, rfl⟩

theorem Step.sends_hail (m : Model) (sl : Slot) {p : Step} (hail : p.kind = 0) :
    p.sends m sl = sl.line.issueHail := by
  rw [Step.sends, Step.kindOf, hail]
  rfl

theorem Step.sends_peek (m : Model) (sl : Slot) {p : Step} (peek : p.kind = 1) :
    p.sends m sl = sl.line.issueAccess m sl.seq.formAsked (p.addr sl.seq.index) none := by
  rw [Step.sends, Step.kindOf, peek]
  rfl

theorem Step.sends_poke (m : Model) (sl : Slot) {p : Step} (poke : p.kind = 2) :
    p.sends m sl =
      sl.line.issueAccess m sl.seq.formAsked (p.addr sl.seq.index) (some (p.patternByte sl.seq.index)) := by
  rw [Step.sends, Step.kindOf, poke]
  rfl

/-- Settles O58. -/
theorem stepsProbeTheirAddresses : Obligations.StepsProbeTheirAddresses := by
  refine ⟨Step.patternByte_spec, fun m addr apart => ⟨fun i x first last at' range low high => ?_, fun outside => ?_⟩,
    fun st c sl p first step hfirst => ?_⟩
  · have found := lookupFrom_at apart 1 at' ⟨first, last, range, low, high⟩
    rw [Nat.add_comm] at found
    exact ⟨found, Model.waitClass_some found⟩
  · have none : m.lookup addr = none := lookupFrom_none 1 fun x hx ⟨first, last, range, low, high⟩ => by
      rcases outside x hx first last range with below | above
      · exact BitVec.not_le.mpr below low
      · exact BitVec.not_le.mpr above high
    exact ⟨none, Model.waitClass_none none⟩
  · subst hfirst
    obtain ⟨state, sure, lastEnd⟩ := p.sends_keeps (caseModel st c) sl
    obtain ⟨on, at'⟩ := sl.line.asks sl.seq p
    refine ⟨_, _, issueProgram_step step, rfl, state, sure, lastEnd, fun hail => ?_, fun access => ?_⟩
    · rw [Step.sends_hail _ _ hail]
      exact ⟨rfl, rfl⟩
    · refine ⟨sl.seq.formAsked, sl.line.formSent sl.seq.formAsked, sl.line.target sl.seq.formAsked (p.addr sl.seq.index),
        on, at', ?_, fun peek => ?_, fun poke => ?_⟩
      · rcases access with peek | poke
        · rw [Step.sends_peek _ _ peek]
          rfl
        · rw [Step.sends_poke _ _ poke]
          rfl
      · rw [Step.sends_peek _ _ peek, Line.issueAccess_peek]
      · rw [Step.sends_poke _ _ poke, Line.issueAccess_poke]

end Sys2Proof.Machine
end

section
/-! The end of an exchange of a program: the move of the counter and what follows it (R164, R175, R180 to R183, R186,
R206, R209). -/

namespace Sys2Proof.Machine

/-! ## The counter (R180, R181) -/

theorem currentStep_eq {st : Store} {c d : CaseRecord} (h : c.evidence d) (q : Sequencer) :
    currentStep st d q = currentStep st c q ∧ caseSteps st d = caseSteps st c := by
  obtain ⟨model, -, -, stay⟩ := CaseRecord.evidence_keeps h
  have same : caseSteps st d = caseSteps st c := by rw [caseSteps, caseSteps, caseModel, caseModel, caseStage, caseStage,
    caseModel, caseModel, model, stay]
  exact ⟨by rw [currentStep, currentStep, same], same⟩

theorem Sequencer.move_spec {steps : List Step} {q : Sequencer} {p : Step} (at' : steps[q.step - 1]? = some p) :
    (q.index + 1 < p.count →
      q.move steps = ({ q with index := q.index + 1, lastExchange := some (q.step, q.index) }, false)) ∧
    (p.count ≤ q.index + 1 → q.step < steps.length →
      q.move steps = ({ q with
        step := q.step + 1, index := 0, runStart := if p.bound = 0 then q.runStart else none
        lastExchange := some (q.step, q.index) }, false)) ∧
    (p.count ≤ q.index + 1 → steps.length ≤ q.step →
      q.move steps = ({ q with
        step := 1, index := 0, runStart := if p.bound = 0 then q.runStart else none
        lastExchange := some (q.step, q.index) }, true)) := by
  have bound : (if p.isBound = true then q.runStart else none) = if p.bound = 0 then q.runStart else none := by
    simp [Step.isBound]
  unfold Sequencer.move
  rw [at']
  dsimp only
  rw [bound]
  refine ⟨fun more => if_pos more, fun done next => ?_, fun done last => ?_⟩
  · rw [if_neg (by omega), if_pos next]
  · rw [if_neg (by omega), if_neg (by omega)]

/-- The record of a case whose counter has moved. -/
def CaseRecord.passed (c : CaseRecord) (pass : Bool) : CaseRecord :=
  if pass then { c with passes := min (c.passes + 1) 4294967295 } else c

theorem CaseRecord.passed_keeps (c : CaseRecord) (pass : Bool) :
    (c.passed pass).state = c.state ∧ (c.passed pass).stay = c.stay ∧ (c.passed pass).model = c.model := by
  unfold CaseRecord.passed
  cases pass <;> exact ⟨rfl, rfl, rfl⟩

theorem Rack.moveCounter_modLine {st : Store} {r : Rack} {k : SlotIx} {d : CaseRecord} (hd : (r.slot k).record = some d)
    (f : Line → Line) :
    (r.modLine k f).moveCounter st k = r.setSlot k { r.slot k with
      record := some (d.passed ((r.slot k).seq.move (caseSteps st d)).2)
      seq := ((r.slot k).seq.move (caseSteps st d)).1
      line := f (r.slot k).line } := by
  unfold Rack.moveCounter
  rw [Rack.slot_modLine_same]
  dsimp only
  rw [hd]
  dsimp only
  cases pass : ((r.slot k).seq.move (caseSteps st d)).2 with
  | false =>
    rw [if_neg (by decide), Rack.modSeq, Rack.modLine, Rack.modSlot_modSlot]
    have same : some (d.passed false) = (r.slot k).record := hd.symm
    rw [same]
    rfl
  | true =>
    rw [if_pos rfl, Rack.modCase, Rack.modSeq, Rack.modLine, Rack.modSlot_modSlot, Rack.modSlot_modSlot]
    have counted : some (d.passed true) =
        (r.slot k).record.map fun c => { c with passes := bump Config.max32 c.passes } := by
      rw [hd]
      rfl
    rw [counted]
    rfl

/-! ## A stage advance leaves the slot at its boundary (R98, R175) -/

/-- The sequencer stands at a boundary of a case that awaits no grant. -/
def Slot.standsBy (sl : Slot) : Prop := sl.atBoundary = true ∧ sl.caseState ≠ some .waiting

theorem Rack.standsBy_grantPassUpTo (st : Store) (n : Nat) {r : Rack} {k : SlotIx} (h : (r.slot k).standsBy) :
    ((Rack.grantPassUpTo st n r).slot k).standsBy := by
  induction n generalizing r with
  | zero => exact h
  | succ n ih =>
    unfold Rack.grantPassUpTo
    split
    · exact h
    · next e rest _ =>
      split
      · refine ih ?_
        by_cases same : k = e.slot
        · subst same
          unfold Rack.takeGrant
          rw [Rack.slot_setUnits_same]
          obtain ⟨boundary, other⟩ := h
          refine (if_neg (c := _ = _) other) ▸ ?_
          rw [Rack.slot_setUnits_same]
          exact ⟨boundary, other⟩
        · rw [Rack.slot_takeGrant_ne st _ same, Rack.slot_setUnits_ne _ _ same]
          exact h
      · exact h

theorem Rack.standsBy_askUnits {r : Rack} {k : SlotIx} (need : Nat) (h : (r.slot k).standsBy) :
    ((r.askUnits k need).slot k).standsBy := by
  have given (n : Nat) : ((r.setUnits k n).slot k).standsBy := by
    rw [Rack.slot_setUnits_same]
    exact h
  unfold Rack.askUnits
  split
  · exact given 0
  · split
    · exact given need
    · split
      · exact h
      · exact h

theorem Rack.boundary_afterBudget {r : Rack} {k : SlotIx} (h : (r.slot k).atBoundary = true) :
    ((r.afterBudget k).slot k).atBoundary = true := by
  unfold Rack.afterBudget
  split
  · rw [Rack.slot_modSeq_same, Rack.slot_enter_same]
    exact h
  · rw [Rack.slot_modSeq_same]
    simp only [Slot.atBoundary, Bool.and_eq_true] at h ⊢
    obtain ⟨idle, -⟩ := h
    exact ⟨idle, rfl⟩

theorem Rack.boundary_stageAdvance (st : Store) {r : Rack} {k : SlotIx} {c : CaseRecord} (hc : (r.slot k).record = some c)
    (running : c.state = .running) (h : (r.slot k).atBoundary = true) :
    ((r.stageAdvance st k).slot k).atBoundary = true := by
  obtain ⟨evidence, -⟩ := r.stageClean_keeps st k c
  obtain ⟨d, hd, kept⟩ := Rack.evidence_record evidence hc
  have state := CaseRecord.evidence_run kept (.inr (.inl running))
  have model : caseModel st d = caseModel st c := by
    obtain ⟨model, -⟩ := CaseRecord.evidence_keeps kept
    rw [caseModel, caseModel, model]
  have clean : ((r.stageClean st k c).slot k).atBoundary = true := by
    rw [Rack.evidence_slot evidence k]
    exact h
  unfold Rack.stageAdvance
  rw [hc]
  dsimp only
  split
  · obtain ⟨own, -⟩ := Rack.endRun_spec st ((r.stageClean st k c).modStay k fun y =>
      { y with draining := false, heldAdvance := false }) k
      (((r.stageClean st k c).modStay k fun y => { y with draining := false, heldAdvance := false }).doneState k .complete)
    change ((Rack.endRun st _ k _).slot k).atBoundary = true
    rw [own]
    simp [Slot.atBoundary]
  · next p _ =>
    have stay := Rack.slot_nextStay hd model p
    refine Rack.boundary_afterBudget (Rack.standsBy_grantPassUpTo st _ (Rack.standsBy_askUnits _ ?_)).1
    rw [Rack.slot_setUnits_same, stay]
    refine ⟨clean, ?_⟩
    simp [Slot.caseState, state, running]

end Sys2Proof.Machine
end

section
/-! What follows the end of an exchange of a program (R164, R175, R180 to R183, R186, R206, R209, R213). -/

namespace Sys2Proof.Machine

theorem Rack.granted_of_bench {r : Rack} {k : SlotIx} (bench : r.bench.state = .idle ∨ r.bench.state = .pending k) :
    r.isGranted k = false := by
  rcases bench with h | h <;> simp [Rack.isGranted, h]

/-! ## The next exchange goes out -/

section Goes
variable {st : Store} {r : Rack} {k : SlotIx} {c : CaseRecord} {p : Step} (hc : (r.slot k).record = some c)
  (program : (r.slot k).seq.mode = .program) (none : (r.slot k).line.exchange = none) (idle : (r.slot k).line.state = .idle)
include hc program none idle

theorem Rack.issue_program (may : (r.slot k).seq.runStart.isSome = true ∧ r.isGranted k = false ∨
      c.state ≠ .paused ∧ r.quiesce = .active ∧ r.bench.state = .idle ∧ c.stay.draining = false ∧
        (caseStage st c).program ≠ 0) : Rack.issue st r k = r.modSlot k (issueProgram st c) := by
  have may' : mayIssue st r k c = true := by
    rcases may with ⟨run, free⟩ | ⟨calm, active, bench, still, steps⟩
    · simp [mayIssue, Rack.stopReasons, none, idle, program, run, free]
    · have stay : (r.slot k).stay.draining = false := by rw [Slot.stay_of_record hc, still]
      cases run : (r.slot k).seq.runStart <;>
        simp [mayIssue, Rack.stopReasons, none, idle, program, run, active, Rack.isPending, Rack.isGranted, bench, stay,
          Slot.caseState_of_record hc, calm, steps]
  unfold Rack.issue
  rw [hc]
  dsimp only
  rw [if_pos may', program]

end Goes

theorem issueProgram_inRun (st : Store) (c : CaseRecord) {sl : Slot} (run : sl.seq.runStart.isSome = true) :
    (issueProgram st c sl).seq.runStart.isSome = true := by
  unfold issueProgram
  split
  · exact run
  · dsimp only
    split
    · rfl
    · exact run

section InRun
variable {st : Store} {r : Rack} {k : SlotIx} {c : CaseRecord} (use : r.inUse k = true) (hc : (r.slot k).record = some c)
  (program : (r.slot k).seq.mode = .program) (none : (r.slot k).line.exchange = none)
  (idle : (r.slot k).line.state = .idle) (bench : r.bench.state = .idle ∨ r.bench.state = .pending k)
include use hc program none idle bench

/-- In a run the next exchange follows, whatever else is asked of the slot (R182). -/
theorem Rack.proceed_inRun (run : (r.slot k).seq.runStart ≠ .none) :
    r.proceed st k = r.modSlot k (issueProgram st c) := by
  have run' := Option.isSome_iff_ne_none.mpr run
  have boundary : (r.slot k).atBoundary = false := by simp [Slot.atBoundary, run']
  have unpended : ∀ j, r.isPending j = true → (r.slot j).atBoundary = false := fun j pending => by
    rcases bench with h | h
    · exact Rack.unpended_of_idle h j pending
    · simp only [Rack.isPending, h, beq_iff_eq] at pending
      rw [← pending, boundary]
  unfold Rack.proceed
  rw [Rack.takeOrHoldAdvance_still st r k (.inr (.inr boundary)), Rack.grantPending_inRun r unpended,
    Rack.issue_program hc program none idle (.inl ⟨run', Rack.granted_of_bench bench⟩)]
  refine Rack.checkQuiesced_running (.inr ⟨k, use, ?_⟩)
  have free : (r.modSlot k (issueProgram st c)).isGranted k = false := Rack.granted_of_bench (r := r) bench
  rw [Rack.isIdle, free, Rack.slot_modSlot_same, Slot.atBoundary]
  simp [Option.isNone_eq_false_iff.mpr (issueProgram_inRun st c run')]

end InRun

/-! ## Nothing goes out -/

/-- The slot of a held rack: the advance it does not take is marked. -/
def CaseRecord.held (c : CaseRecord) : CaseRecord :=
  { c with stay := { c.stay with heldAdvance := c.stay.heldAdvance || c.stay.draining } }

theorem Rack.issue_boundary_held (st : Store) {r : Rack} {k : SlotIx} (program : (r.slot k).seq.mode = .program)
    (boundary : (r.slot k).seq.runStart = none)
    (held : (r.slot k).caseState = some .paused ∨ r.quiesce ≠ .active ∨ r.isGranted k = true) : Rack.issue st r k = r := by
  unfold Rack.issue
  cases (r.slot k).record with
  | none => rfl
  | some c =>
    refine if_neg ?_
    rcases held with h | h | h <;> simp [mayIssue, Rack.stopReasons, program, boundary, h]

section Held
variable {st : Store} {r : Rack} {k : SlotIx} {c : CaseRecord} (hc : (r.slot k).record = some c)
  (program : (r.slot k).seq.mode = .program) (none : (r.slot k).line.exchange = none)
  (boundary : (r.slot k).seq.runStart = .none) (bench : r.bench.state = .idle ∨ r.bench.state = .pending k)
  (held : c.state = .paused ∨ r.quiesce ≠ .active ∨ r.bench.state = .pending k ∧ c.stay.draining = false)
include hc program none boundary held

theorem Rack.takeOrHoldAdvance_held :
    (r.takeOrHoldAdvance st k).slot k = { r.slot k with record := some c.held } ∧
    Rack.onlySlot k r (r.takeOrHoldAdvance st k) ∧ (r.takeOrHoldAdvance st k).notices = r.notices := by
  have stay : (r.slot k).stay.draining = c.stay.draining := by rw [Slot.stay_of_record hc]
  cases draining : c.stay.draining with
  | false =>
    have same : some c.held = (r.slot k).record := by
      rw [hc, CaseRecord.held, draining, Bool.or_false]
    rw [Rack.takeOrHoldAdvance_still st r k (.inl (stay.trans draining)), same]
    exact ⟨rfl, r.onlySlot_refl k, rfl⟩
  | true =>
    have still : (r.slot k).caseState ≠ some .running ∨ r.quiesce ≠ .active ∨ r.isGranted k = true := by
      rw [Slot.caseState_of_record hc]
      rcases held with paused | quiet | ⟨-, no⟩
      · exact .inl (by rw [paused]; decide)
      · exact .inr (.inl quiet)
      · rw [draining] at no
        cases no
    rw [Rack.takeOrHoldAdvance_holds st (stay.trans draining) program (by simp [Slot.atBoundary, none, boundary]) still]
    refine ⟨?_, r.onlySlot_modStay k _, rfl⟩
    rw [Rack.slot_modStay_same, hc, CaseRecord.held, draining, Bool.or_true, Option.map_some]

include bench

/-- What follows at a boundary where nothing goes out: a HOLD that was pending is granted. -/
theorem Rack.proceed_held :
    ∃ g : Rack, r.proceed st k = g.checkQuiesced ∧ (∀ j, g.isIdle j = r.isIdle j) ∧ g.wide = r.wide ∧
      g.quiesce = r.quiesce ∧ g.queue = r.queue ∧ g.notices.flags = r.notices.flags ∧
      (∀ j, j ≠ k → g.slot j = r.slot j) ∧
      (r.bench.state = .idle → g.slot k = { r.slot k with record := some c.held } ∧ g.bench = r.bench ∧
        g.notices.slots = r.notices.slots) ∧
      (r.bench.state = .pending k → g.slot k = { r.slot k with
          record := some c.held, line := { (r.slot k).line with state := .passed, sure := false } } ∧
        g.bench = { r.bench with state := .granted k } ∧ g.notices.slots = (r.noticeSlot k).notices.slots) := by
  obtain ⟨own, only, notices⟩ := Rack.takeOrHoldAdvance_held (st := st) hc program none boundary held
  obtain ⟨wide, -, queue, quiesce, benches, others⟩ := only
  unfold Rack.proceed
  generalize r.takeOrHoldAdvance st k = t at *
  have idle : ∀ j, t.isIdle j = r.isIdle j := fun j => by
    by_cases same : j = k
    · subst same
      simp [Rack.isIdle, Slot.atBoundary, own, Rack.isGranted, benches]
    · simp [Rack.isIdle, others j same, Rack.isGranted, benches]
  rcases bench with h | h
  · have h' : t.bench.state = .idle := by rw [benches, h]
    have why : c.state = .paused ∨ r.quiesce ≠ .active := by
      rcases held with paused | quiet | ⟨pending, -⟩
      · exact .inl paused
      · exact .inr quiet
      · rw [h] at pending
        cases pending
    have stays : Rack.issue st t k = t := Rack.issue_boundary_held st (by rw [own, program]) (by rw [own, boundary])
      (why.imp (fun paused => by rw [own]; exact congrArg some paused) fun quiet => .inl (by rwa [quiesce]))
    refine ⟨t, by rw [Rack.grantPending_idle t h', stays], idle, wide, quiesce, queue, by rw [notices], others,
      fun _ => ⟨own, benches, by rw [notices]⟩, fun pending => ?_⟩
    rw [h] at pending
    cases pending
  · have pending : t.isPending k = true := by simp [Rack.isPending, benches, h]
    have given := Rack.grantPending_at t pending (by rw [own]; simp [Slot.atBoundary, none, boundary])
    obtain ⟨wide', -, queue', quiesce', flags'⟩ := t.rest_grantPending
    have idle' := t.isIdle_grantPending
    rw [given] at wide' queue' quiesce' flags' idle'
    have own' : (t.benchGrant k).slot k = { r.slot k with
        record := some c.held, line := { (r.slot k).line with state := .passed, sure := false } } := by
      rw [Rack.slot_benchGrant, own]
    have stays : Rack.issue st (t.benchGrant k) k = t.benchGrant k := Rack.issue_granted st (by
      simp [Rack.isGranted, Rack.benchGrant])
    refine ⟨t.benchGrant k, by rw [given, stays], fun j => (idle' j).trans (idle j), wide'.trans wide,
      quiesce'.trans quiesce, queue'.trans queue, flags'.trans (by rw [notices]), fun j other => ?_, fun free => ?_,
      fun _ => ⟨own', ?_, ?_⟩⟩
    · rw [Rack.slot_benchGrant_ne t other, others j other]
    · rw [h] at free
      cases free
    · have state : (t.benchGrant k).bench = { t.bench with state := .granted k } := rfl
      rw [state, benches]
    · change t.notices.slots ||| _ = r.notices.slots ||| _
      rw [notices]

end Held

/-- A HOLD that was pending is granted once the advance of a RUNNING case is taken (R98, R206). -/
theorem Rack.proceed_running_granted (st : Store) {r : Rack} {k : SlotIx} {c : CaseRecord} (hc : (r.slot k).record = some c)
    (running : c.state = .running) (active : r.quiesce = .active) (draining : c.stay.draining = true)
    (program : (r.slot k).seq.mode = .program) (boundary : (r.slot k).atBoundary = true)
    (bench : r.bench.state = .pending k) : (r.proceed st k).bench.state = .granted k := by
  have taken := Rack.takeOrHoldAdvance_takes st (by rw [Slot.stay_of_record hc, draining]) program boundary
    (by rw [Slot.caseState_of_record hc, running]) active (Rack.granted_of_bench (.inr bench))
  obtain ⟨-, -, benches, -⟩ := r.sameHouse_stageAdvance st k
  have at' := Rack.boundary_stageAdvance st hc running boundary
  have pending : (r.stageAdvance st k).isPending k = true := by simp [Rack.isPending, benches, bench]
  obtain ⟨-, -, -, -, issued, -⟩ := Rack.rest_issue st ((r.stageAdvance st k).benchGrant k) k
  unfold Rack.proceed
  obtain ⟨-, -, -, checked, -⟩ := (Rack.issue st ((r.stageAdvance st k).benchGrant k) k).rest_checkQuiesced
  rw [taken, Rack.grantPending_at _ pending at', checked, issued]
  rfl

end Sys2Proof.Machine
end

section
/-! The end of an exchange of a program, row by row (R156, R157, R159, R163, R164, R166, R180 to R183, R186, R206). -/

namespace Sys2Proof.Machine

/-! ## What an OK result hands (R186) -/

section Hand
variable {st : Store} {r : Rack} {k : SlotIx} {c : CaseRecord} {x : Exchange} (hc : (r.slot k).record = some c)
include hc

theorem Rack.handResult_poke {asked sent : Form} {t : Addr} {d : Byte} (poke : x.probe = .poke asked sent t d) :
    r.handResult st k (r.resultOf st k x .ok) = r := by
  unfold Rack.handResult Rack.resultOf Rack.judgeResult Rack.judgeOk Exchange.record
  rw [hc, poke]
  rfl

theorem Rack.handResult_hail (hail : x.probe = .hail) :
    r.handResult st k (r.resultOf st k x .ok) = r.passItem st k (caseModel st c).header.path := by
  unfold Rack.handResult Rack.resultOf Rack.judgeResult Rack.judgeOk Exchange.record
  rw [hc, hail]
  rfl

theorem Rack.handResult_peek {asked sent : Form} {t : Addr} {b : Byte} {p : Step} (peek : x.probe = .peek asked sent t)
    (byte : x.returned = [b]) (step : currentStep st c (r.slot k).seq = some p) :
    r.handResult st k (r.resultOf st k x .ok) =
      if p.mask = 0 then r
      else if b &&& p.mask = p.patternByte (r.slot k).seq.index &&& p.mask then
        r.passItem st k ((caseModel st c).covering t)
      else r.failNow st k ((caseModel st c).covering t) .miscompare := by
  have judged : r.handResult st k (r.resultOf st k x .ok) = r.judgePeek st k c ((caseModel st c).covering t) b := by
    unfold Rack.handResult Rack.resultOf Rack.judgeResult Rack.judgeOk Exchange.record
    rw [hc, peek, byte]
    rfl
  rw [judged, Rack.judgePeek, step]

end Hand

theorem Rack.evidence_judgePeek (st : Store) (r : Rack) (k : SlotIx) (n : Nat) (p : Step) (b e : Byte) :
    r.evidence (if p.mask = 0 then r else if b = e then r.passItem st k n else r.failNow st k n .miscompare) := by
  split
  · exact r.evidence_refl
  · split
    · exact r.evidence_passItem st k n
    · exact r.evidence_failNow st k n .miscompare

/-! ## The rack of an exchange that ends in PROGRAM mode (R164, R166, R180) -/

/-- What the end of an exchange of a program does: the line is finished, the counter moves, and what follows. -/
def Rack.goesOn (st : Store) (judged : Rack) (k : SlotIx) (f : Line → Line) : Rack :=
  ((judged.modLine k f).moveCounter st k).proceed st k

theorem Rack.exchangeOk_program {st : Store} {r judged : Rack} {k : SlotIx} {x : Exchange}
    (hand : r.handResult st k (r.resultOf st k x .ok) = judged) (evidence : r.evidence judged)
    (program : (r.slot k).seq.mode = .program) :
    r.exchangeOk st k x = judged.goesOn st k fun l => (l.sureAfterOk x.probe.kind).finish := by
  unfold Rack.exchangeOk
  dsimp only
  rw [hand]
  have mode : ((judged.modLine k fun l => (l.sureAfterOk x.probe.kind).finish).slot k).seq.mode = .program := by
    rw [Rack.slot_modLine_same, Rack.evidence_slot evidence k]
    exact program
  exact congrArg (fun r => Rack.proceed st r k) (if_neg (by
    change ¬ ((judged.modLine k fun l => (l.sureAfterOk x.probe.kind).finish).slot k).seq.mode = .hail
    rw [mode]
    decide))

theorem Rack.exchangeFailed_program {st : Store} {r : Rack} {k : SlotIx} (program : (r.slot k).seq.mode = .program) :
    r.exchangeFailed st k = r.goesOn st k Line.finish := by
  unfold Rack.exchangeFailed
  dsimp only
  rw [if_neg (by rw [Rack.slot_modLine_same, program]; decide)]
  rfl

/-! ## Returned bytes (R159, R163) -/

theorem LineChar.clean_good (b : Byte) : LineChar.clean ⟨b, evenParity b, true⟩ = true := by simp [LineChar.clean]

section Reply
variable {st : Store} {r : Rack} {k : SlotIx} {x : Exchange} (replying : (r.slot k).line.state = .reply)
  (hx : (r.slot k).line.exchange = some x)
include replying hx

theorem Rack.reply_good (st : Store) (b : Byte) : r.reply st k ⟨b, evenParity b, true⟩ = r.takeReply st k x b := by
  rw [Rack.reply, Rack.inLine_taken replying hx]
  exact if_pos (LineChar.clean_good b)

/-- A returned byte that others follow. -/
theorem Rack.reply_more {b : Byte} (more : x.returned.length + 1 < x.probe.replies) :
    r.reply st k ⟨b, evenParity b, true⟩ = r.modLine k (Line.setExchange { x with returned := x.returned ++ [b] }) := by
  rw [Rack.reply_good replying hx, Rack.takeReply]
  exact if_pos (by simpa using more)

/-- The last returned byte. -/
theorem Rack.reply_last {b : Byte} (last : x.probe.replies ≤ x.returned.length + 1) :
    r.reply st k ⟨b, evenParity b, true⟩ = r.exchangeOk st k { x with returned := x.returned ++ [b] } := by
  rw [Rack.reply_good replying hx, Rack.takeReply]
  exact if_neg (by simpa using last)

end Reply

/-! ## The rows -/

section Rows
variable {s : State} {k : SlotIx} {c : CaseRecord} {x : Exchange} (quiet : s.quiet)
  (program : (s.rack.slot k).seq.mode = .program) (hx : (s.rack.slot k).line.exchange = some x)
include quiet program hx

theorem exec_lastEcho {asked sent : Form} {t : Addr} {d b : Byte} {looks : List Bool}
    (hc : (s.rack.slot k).record = some c) (poke : x.probe = .poke asked sent t d)
    (sending : (s.rack.slot k).line.state = .send) (all : x.sent = x.probe.chars.length)
    (last : x.probe.chars.getLast? = some b) (whole : receive looks = some ⟨b, evenParity b, true⟩) :
    exec (.echoReceived k looks) s =
      .next (s.withRack (s.rack.goesOn s.store k fun l => (l.sureAfterOk x.probe.kind).finish)) := by
  have nonempty : x.probe.chars ≠ [] := fun empty => by
    rw [empty] at last
    cases last
  have some := List.length_pos_iff.mpr nonempty
  have at' : x.probe.chars[x.sent - 1]? = .some b := by rw [← last, List.getLast?_eq_getElem?, all]
  refine (exec_echoReceived quiet whole).trans (congrArg (fun r => Host.Outcome.next (s.withRack r)) ?_)
  rw [Rack.echo_good s.store sending hx (by omega) at', Rack.goodEcho, if_neg (by omega), if_pos (by rw [poke]; rfl)]
  exact Rack.exchangeOk_program (Rack.handResult_poke hc poke) s.rack.evidence_refl program

theorem exec_lastReply {b : Byte} {looks : List Bool} {judged : Rack} (replying : (s.rack.slot k).line.state = .reply)
    (last : x.probe.replies ≤ x.returned.length + 1) (whole : receive looks = some ⟨b, evenParity b, true⟩)
    (hand : s.rack.handResult s.store k (s.rack.resultOf s.store k { x with returned := x.returned ++ [b] } .ok) = judged)
    (evidence : s.rack.evidence judged) :
    exec (.replyByteReceived k looks) s =
      .next (s.withRack (judged.goesOn s.store k fun l => (l.sureAfterOk x.probe.kind).finish)) := by
  refine (exec_replyByteReceived quiet whole).trans (congrArg (fun r => Host.Outcome.next (s.withRack r)) ?_)
  rw [Rack.reply_last replying hx last]
  exact Rack.exchangeOk_program hand evidence program

theorem exec_lastSettle (hc : (s.rack.slot k).record = some c) (settle : (s.rack.slot k).line.state = .settle)
    (last : (caseModel s.store c).header.retries < x.attempt) :
    exec (.settleEnd k) s = .next (s.withRack (s.rack.goesOn s.store k Line.finish)) := by
  refine (exec_onRack (i := .settleEnd k) (event := fun st r => r.settleEnd st k) rfl quiet).trans
    (congrArg (fun r => Host.Outcome.next (s.withRack r)) ?_)
  exact (Rack.settleEnd_fails hc settle hx last).trans (Rack.exchangeFailed_program program)

end Rows

/-- The line of an exchange that has ended. -/
def Line.ended (l : Line) (sure : Bool) : Line :=
  { l with state := .idle, exchange := none, sure := sure, lastEnd := .within }

/-! ## What follows in PROGRAM mode -/

theorem Rack.isIdle_evidence {r r' : Rack} (h : r.evidence r') (j : SlotIx) : r'.isIdle j = r.isIdle j := by
  have own := Rack.evidence_slot h j
  obtain ⟨-, -, -, -, bench, -⟩ := h
  rw [Rack.isIdle, Rack.isIdle, Rack.isGranted, Rack.isGranted, bench, own]
  rfl

theorem Rack.setSlot_modSlot (r : Rack) (k : SlotIx) (sl : Slot) (f : Slot → Slot) :
    (r.setSlot k sl).modSlot k f = r.setSlot k (f sl) := r.modSlot_modSlot k (fun _ => sl) f

theorem Rack.isIdle_setSlot_ne (r : Rack) {j k : SlotIx} (sl : Slot) (other : j ≠ k) :
    (r.setSlot k sl).isIdle j = r.isIdle j := by
  rw [Rack.isIdle, Rack.isIdle, Rack.slot_setSlot_ne r sl other]
  rfl

theorem CaseRecord.held_of_stay {c : CaseRecord} {y : Stay} (h : c.stay = y) :
    c.held = { c with stay := { y with heldAdvance := y.heldAdvance || y.draining } } := by
  subst h
  rfl

theorem program_ne_zero {st : Store} {c : CaseRecord} {q : Sequencer} {p : Step} (h : currentStep st c q = some p) :
    (caseStage st c).program ≠ 0 := by
  intro zero
  rw [currentStep, caseSteps, zero] at h
  cases h

/-- The slot whose exchange has ended. -/
def Slot.movedOn (sl : Slot) (steps : List Step) (d : CaseRecord) (sure : Bool) : Slot :=
  { sl with
    record := some (d.passed (sl.seq.move steps).2)
    seq := (sl.seq.move steps).1
    line := sl.line.ended sure }

theorem Rack.goesOn_eq {st : Store} {judged : Rack} {k : SlotIx} {d : CaseRecord} (hd : (judged.slot k).record = some d)
    {f : Line → Line} {sure : Bool} (ends : f (judged.slot k).line = (judged.slot k).line.ended sure) :
    judged.goesOn st k f =
      (judged.setSlot k ((judged.slot k).movedOn (caseSteps st d) d sure)).proceed st k := by
  rw [Rack.goesOn, Rack.moveCounter_modLine hd, ends, Slot.movedOn]

/-- The counter leaves the mode as it is. -/
theorem Sequencer.mode_move (steps : List Step) (q : Sequencer) : (q.move steps).1.mode = q.mode := by
  unfold Sequencer.move
  split
  · rfl
  · dsimp only
    split
    · rfl
    · split
      · rfl
      · rfl

section Follows
variable {st : Store} {r judged : Rack} {k : SlotIx} {c : CaseRecord} {sl : Slot} (evidence : r.evidence judged)
  (hc : sl.record = some c) (program : sl.seq.mode = .program) (none : sl.line.exchange = none)
  (bench : r.bench.state = .idle ∨ r.bench.state = .pending k)
include evidence hc program none bench

/-- The next exchange of a program follows the one that ended. -/
theorem Rack.setSlot_goes (use : r.inUse k = true) (idle : sl.line.state = .idle) (steps : (caseStage st c).program ≠ 0)
    (goes : sl.seq.runStart ≠ .none ∨ c.state = .running ∧ r.quiesce = .active ∧ r.bench.state = .idle ∧
      c.stay.draining = false) :
    (judged.setSlot k sl).proceed st k = judged.setSlot k (issueProgram st c sl) := by
  obtain ⟨wide, -, -, quiesce, benches, -⟩ := evidence
  have own := judged.slot_setSlot_same k sl
  have issues (h : (judged.setSlot k sl).proceed st k = (judged.setSlot k sl).modSlot k (issueProgram st c)) :
      (judged.setSlot k sl).proceed st k = judged.setSlot k (issueProgram st c sl) :=
    h.trans (judged.setSlot_modSlot k sl _)
  by_cases run : sl.seq.runStart = .none
  · obtain ⟨running, active, free, still⟩ := goes.resolve_left (not_not_intro run)
    have free' : (judged.setSlot k sl).bench.state = .idle := (congrArg Bench.state benches).trans free
    have active' : (judged.setSlot k sl).quiesce = .active := quiesce.trans active
    refine issues ((Rack.proceed_issues st (by rw [active']; decide) (Rack.unpended_of_idle free')
      (.inl (by rw [own, Slot.stay_of_record hc, still]))).trans ?_)
    exact Rack.issue_program (by rw [own, hc]) (by rw [own, program]) (by rw [own, none]) (by rw [own, idle])
      (.inr ⟨by rw [running]; decide, active', free', still, steps⟩)
  · have use' : (judged.setSlot k sl).inUse k = true := by rwa [Rack.inUse, Rack.wide_setSlot, wide]
    exact issues (Rack.proceed_inRun use' (by rw [own, hc]) (by rw [own, program]) (by rw [own, none]) (by rw [own, idle])
      (by rwa [Rack.bench_setSlot, benches]) (by rwa [own]))

/-- The advance of a draining case follows the exchange that ended. -/
theorem Rack.setSlot_advances (boundary : sl.seq.runStart = .none) (running : c.state = .running)
    (active : r.quiesce = .active) (draining : c.stay.draining = true) :
    (r.bench.state = .pending k → ((judged.setSlot k sl).proceed st k).bench.state = .granted k) ∧
    ∀ p, (judged.setSlot k sl).advanceDue st k c p →
      (judged.setSlot k sl).advancedTo st ((judged.setSlot k sl).proceed st k) k c p := by
  obtain ⟨-, -, -, quiesce, benches, -⟩ := evidence
  have own := judged.slot_setSlot_same k sl
  refine ⟨fun pending => ?_, fun p due => ?_⟩
  · exact Rack.proceed_running_granted st (by rw [own, hc]) running (quiesce.trans active) draining (by rw [own, program])
      (by rw [own, Slot.atBoundary, none, boundary]; rfl) ((congrArg Bench.state benches).trans pending)
  · have free : (judged.setSlot k sl).isGranted k = false := by
      refine Rack.granted_of_bench ?_
      rwa [Rack.bench_setSlot, benches]
    exact (Rack.proceed_due due running (quiesce.trans active) free).1

/-- At a boundary that stops the program no exchange follows. -/
theorem Rack.setSlot_held (boundary : sl.seq.runStart = .none)
    (held : c.state = .paused ∨ r.quiesce ≠ .active ∨ r.bench.state = .pending k ∧ c.stay.draining = false)
    {r' : Rack} (follows : (judged.setSlot k sl).proceed st k = r') :
    (r'.slot k).record = some c.held ∧
    r'.slot k = { sl with record := (r'.slot k).record, line := (r'.slot k).line } ∧
    (∀ j, j ≠ k → r'.slot j = judged.slot j) ∧ r'.queue = r.queue ∧
    (r.bench.state = .idle → (r'.slot k).line = sl.line ∧ r'.bench = r.bench ∧
      r'.notices.slots = judged.notices.slots) ∧
    (r.bench.state = .pending k → (r'.slot k).line = { sl.line with state := .passed, sure := false } ∧
      r'.bench = { r.bench with state := .granted k } ∧ r'.notices.slots = (judged.noticeSlot k).notices.slots) ∧
    (r.quiesce = .quiescing → (∀ j, j ≠ k → r.inUse j = true → r.isIdle j = true) →
      r'.quiesce = .quiesced ∧ r'.notices.flags = r.notices.flags ||| 1) ∧
    (r.quiesce ≠ .quiescing ∨ (∃ j, j ≠ k ∧ r.inUse j = true ∧ r.isIdle j = false) →
      r'.quiesce = r.quiesce ∧ r'.notices.flags = r.notices.flags) := by
  have same := Rack.isIdle_evidence evidence
  obtain ⟨wide, -, queue, quiesce, benches, flags, -⟩ := evidence
  have own := judged.slot_setSlot_same k sl
  obtain ⟨g, check, idles, wideG, quiesceG, queueG, flagsG, others, free, pending⟩ := Rack.proceed_held (st := st)
    (r := judged.setSlot k sl) (k := k) (c := c) (by rw [own, hc]) (by rw [own, program]) (by rw [own, none])
    (by rw [own, boundary]) (by rwa [Rack.bench_setSlot, benches]) (by rwa [Rack.bench_setSlot, benches,
      Rack.quiesce_setSlot, quiesce])
  rw [own] at free pending
  have atBoundary : (judged.setSlot k sl).isIdle k = true := by
    simp [Rack.isIdle, Slot.atBoundary, none, boundary]
  obtain ⟨-, -, queueC, benchC, slotsC, -⟩ := g.rest_checkQuiesced
  subst follows
  rw [check, Rack.slot_checkQuiesced, queueC, benchC, slotsC]
  have benchG : (judged.setSlot k sl).bench = r.bench := benches
  rw [benchG] at free pending
  refine ⟨?_, ?_, fun j other => ?_, (queueG.trans queue), fun h => ?_, fun h => ?_, fun h idle => ?_, fun h => ?_⟩
  · rcases bench with h | h
    · rw [(free h).1]
    · rw [(pending h).1]
  · rcases bench with h | h
    · rw [(free h).1]
    · rw [(pending h).1]
  · rw [Rack.slot_checkQuiesced, others j other, judged.slot_setSlot_ne sl other]
  · obtain ⟨slot, bench', slots⟩ := free h
    exact ⟨by rw [slot], bench', slots⟩
  · obtain ⟨slot, bench', slots⟩ := pending h
    exact ⟨by rw [slot], bench', slots⟩
  · rw [Rack.checkQuiesced_idle (quiesceG.trans (quiesce.trans h)) fun j used => ?_]
    · exact ⟨rfl, congrArg (· ||| 1) (flagsG.trans flags)⟩
    · rw [idles]
      by_cases self : j = k
      · rw [self, atBoundary]
      · rw [judged.isIdle_setSlot_ne sl self, same]
        refine idle j self ?_
        rwa [Rack.inUse, wideG, Rack.wide_setSlot, wide] at used
  · have stays : g.checkQuiesced = g := by
      refine Rack.checkQuiesced_running (h.imp (fun other => ?_) fun ⟨j, self, used, busy⟩ => ⟨j, ?_, ?_⟩)
      · rwa [quiesceG, Rack.quiesce_setSlot, quiesce]
      · rwa [Rack.inUse, wideG, Rack.wide_setSlot, wide]
      · rw [idles, judged.isIdle_setSlot_ne sl self, same, busy]
    rw [stays]
    exact ⟨quiesceG.trans quiesce, flagsG.trans flags⟩

end Follows

/-- Settles O59. -/
theorem programExchangesEndAndGoOn : Obligations.ProgramExchangesEndAndGoOn := by
  intro s k c x p i judged sure looks quiet hc use state bench program hx step row
  have key : ∃ f : Line → Line, exec i s = .next (s.withRack (judged.goesOn s.store k f)) ∧ s.rack.evidence judged ∧
      f (s.rack.slot k).line = (s.rack.slot k).line.ended sure := by
    rcases row with ⟨asked, sent, t, d, b, poke, sending, all, last, rfl, whole, rfl, rfl⟩ |
      ⟨asked, sent, t, b, n, peek, replying, none, rfl, whole, rfl, mapped, unmapped, rfl⟩ |
      ⟨high, low, hail, replying, one, rfl, whole, rfl, rfl⟩ | ⟨settle, last, rfl, rfl, rfl⟩
    · refine ⟨_, exec_lastEcho quiet program hx hc poke sending all last whole, s.rack.evidence_refl, ?_⟩
      rw [poke]
      rfl
    · have covering : n = (caseModel s.store c).covering t := by
        unfold Model.covering
        cases found : (caseModel s.store c).lookup t with
        | none => exact unmapped found
        | some entry => exact mapped _ _ found
      have hand := Rack.handResult_peek hc (x := { x with returned := x.returned ++ [b] }) peek (by rw [none]; rfl) step
      rw [← covering] at hand
      have evidence := s.rack.evidence_judgePeek s.store k n p (b &&& p.mask)
        (p.patternByte (s.rack.slot k).seq.index &&& p.mask)
      refine ⟨_, exec_lastReply quiet program hx replying (by rw [peek, none]; exact Nat.le_refl 1) whole hand evidence,
        evidence, ?_⟩
      rw [peek]
      rfl
    · have hand := Rack.handResult_hail (st := s.store) hc (x := { x with returned := x.returned ++ [low] }) hail
      have evidence := s.rack.evidence_passItem s.store k (caseModel s.store c).header.path
      refine ⟨_, exec_lastReply quiet program hx replying (by rw [hail, one]; exact Nat.le_refl 2) whole hand evidence,
        evidence, ?_⟩
      rw [hail]
      rfl
    · exact ⟨_, exec_lastSettle quiet program hx hc settle last, s.rack.evidence_refl, rfl⟩
  obtain ⟨f, next, evidence, ends⟩ := key
  obtain ⟨d, hd, kept⟩ := Rack.evidence_record evidence hc
  have own := Rack.evidence_slot evidence k
  have seq : (judged.slot k).seq = (s.rack.slot k).seq := by rw [own]
  have line : (judged.slot k).line = (s.rack.slot k).line := by rw [own]
  have steps := (currentStep_eq (st := s.store) kept (s.rack.slot k).seq).2
  rw [Rack.goesOn_eq hd (by rw [line, ends]), steps] at next
  obtain ⟨c', hc'⟩ : ∃ c', c' = d.passed ((s.rack.slot k).seq.move (caseSteps s.store c)).2 := ⟨_, rfl⟩
  obtain ⟨q, hq⟩ : ∃ q, q = ((s.rack.slot k).seq.move (caseSteps s.store c)).1 := ⟨_, rfl⟩
  have moved : (judged.slot k).movedOn (caseSteps s.store c) d sure =
      { judged.slot k with record := some c', seq := q, line := (s.rack.slot k).line.ended sure } := by
    rw [Slot.movedOn, seq, line, hc', hq]
  rw [moved] at next
  obtain ⟨more, following, pass⟩ := Sequencer.move_spec (q := (s.rack.slot k).seq) step
  have mode : q.mode = .program := by rw [hq, Sequencer.mode_move, program]
  have ⟨state', stay', model'⟩ := d.passed_keeps ((s.rack.slot k).seq.move (caseSteps s.store c)).2
  have ⟨model, _, _, stay⟩ := CaseRecord.evidence_keeps kept
  rw [← hc'] at state' stay' model'
  have stateC : c'.state = c.state :=
    state'.trans (CaseRecord.evidence_run kept (.inr (state.imp_right Or.inl)))
  have stayC : c'.stay = c.stay := stay'.trans stay
  have stageC : caseStage s.store c' = caseStage s.store c := by
    rw [caseStage, caseStage, caseModel, caseModel, model', model, stayC]
  refine ⟨_, d, c', q, _, next, hd, fun h => ?_, fun h h' => ?_, fun h h' => ?_, rfl, fun goes => ?_,
    fun boundary running active draining => ?_, fun boundary held => ?_⟩
  · rw [hc', hq, more h]
    exact ⟨rfl, rfl⟩
  · rw [hc', hq, following h h']
    exact ⟨rfl, rfl⟩
  · rw [hc', hq, pass h h']
    exact ⟨rfl, rfl⟩
  · exact Rack.setSlot_goes evidence rfl mode rfl bench use rfl (by rw [stageC]; exact program_ne_zero step)
      (by rwa [stateC, stayC])
  · exact Rack.setSlot_advances evidence rfl mode rfl bench boundary (stateC.trans running) active
      ((congrArg Stay.draining stayC).trans draining)
  · rw [← CaseRecord.held_of_stay stayC]
    exact Rack.setSlot_held evidence rfl mode rfl bench boundary (by rwa [stateC, stayC]) rfl

end Sys2Proof.Machine
end

section
/-! The identity that a HAIL returns (R17, R22, R159, R164, R176, R190, R197). -/

namespace Sys2Proof.Machine

/-! ## The Case Table takes an identity (R17, R22) -/

/-- The case takes its board's identity. -/
def Rack.identified (r : Rack) (k : SlotIx) (id : Half) : Rack := r.modCase k fun c => { c with boardId := some id }

section Identity
variable {st : Store} {r : Rack} {k : SlotIx} {c : CaseRecord} {id : Half} (hc : (r.slot k).record = some c)
  (powering : c.state = .powering)
include hc powering

theorem Rack.takeIdentity_runs (own : c.boardId = none ∨ c.boardId = some id) (free : r.queued k = false) :
    r.takeIdentity st k id = (r.identified k id).enterRunning st k c := by
  have free' : ¬ (r.identified k id).queued k = true := by
    rw [Rack.queued, Rack.identified, Rack.queue_modCase, ← Rack.queued, free]
    decide
  unfold Rack.takeIdentity
  rw [hc]
  dsimp only
  rw [if_pos powering, if_pos own]
  exact if_neg free'

theorem Rack.takeIdentity_waits (own : c.boardId = none ∨ c.boardId = some id) (queued : r.queued k = true) :
    r.takeIdentity st k id = (r.identified k id).enterWaitingOn st k c := by
  have queued' : (r.identified k id).queued k = true := by
    rw [Rack.queued, Rack.identified, Rack.queue_modCase, ← Rack.queued, queued]
  unfold Rack.takeIdentity
  rw [hc]
  dsimp only
  rw [if_pos powering, if_pos own]
  exact if_pos queued'

theorem Rack.takeIdentity_swapped (other : ¬ (c.boardId = none ∨ c.boardId = some id)) :
    r.takeIdentity st k id = r.endRun st k (.faulted .swapped) := by
  unfold Rack.takeIdentity
  rw [hc]
  dsimp only
  rw [if_pos powering, if_neg other]

omit powering

theorem Rack.slot_enterRunning (d : CaseRecord) : ((r.identified k id).enterRunning st k d).slot k = { r.slot k with
    record := some { c with state := .running, boardId := some id }
    stamp := (r.slot k).stamp + 1
    seq := Sequencer.startProgram (r.slot k).seq
    watch := { Watch.armBeat (caseStage st d).window (r.slot k).watch with boot := none } } := by
  rw [Rack.enterRunning, Rack.slot_modWatch_same, Rack.slot_modSeq_same, Rack.slot_enter_same, Rack.identified,
    Rack.slot_modCase_same, hc]
  rfl

theorem Rack.slot_enterWaitingOn (d : CaseRecord) : ((r.identified k id).enterWaitingOn st k d).slot k = { r.slot k with
    record := some { c with state := .waiting, boardId := some id }
    stamp := (r.slot k).stamp + 1
    seq := { (r.slot k).seq with mode := .off, tickWait := false, waitTickSeen := false }
    watch := { Watch.armBeat (caseStage st d).window (r.slot k).watch with boot := none } } := by
  rw [Rack.enterWaitingOn, Rack.slot_modWatch_same, Rack.slot_modSeq_same, Rack.slot_enter_same, Rack.identified,
    Rack.slot_modCase_same, hc]
  rfl

end Identity

theorem Rack.onlySlot_identified (r : Rack) (k : SlotIx) (id : Half) : Rack.onlySlot k r (r.identified k id) :=
  ⟨rfl, rfl, rfl, rfl, rfl, fun _ other => r.slot_modCase_ne _ other⟩

theorem Rack.onlySlot_enterRunning (st : Store) (r : Rack) (k : SlotIx) (c : CaseRecord) :
    Rack.onlySlot k r (r.enterRunning st k c) :=
  Rack.onlySlot_trans (Rack.onlySlot_trans (r.onlySlot_enter k _) (Rack.onlySlot_modSeq _ k _)) (Rack.onlySlot_modWatch _ k _)

theorem Rack.onlySlot_enterWaitingOn (st : Store) (r : Rack) (k : SlotIx) (c : CaseRecord) :
    Rack.onlySlot k r (r.enterWaitingOn st k c) :=
  Rack.onlySlot_trans (Rack.onlySlot_trans (r.onlySlot_enter k _) (Rack.onlySlot_modSeq _ k _)) (Rack.onlySlot_modWatch _ k _)

/-- The watch of a case whose boot has ended. -/
theorem Watch.armedFrom_booted (window : Nat) (w : Watch) :
    Watch.armedFrom window 0 { w with boot := none } { Watch.armBeat window w with boot := none } := by
  unfold Watch.armBeat
  refine ⟨fun zero => ?_, fun some => ?_⟩
  · rw [if_pos zero]
  · rw [if_neg some]

/-! ## The rows -/

theorem Rack.exchangeOk_hail {st : Store} {r judged : Rack} {k : SlotIx} {x : Exchange} {high low : Byte}
    (hand : r.handResult st k (r.resultOf st k x .ok) = judged) (evidence : r.evidence judged)
    (mode : (r.slot k).seq.mode = .hail) (hail : x.probe = .hail) (returned : x.returned = [high, low]) :
    r.exchangeOk st k x = ((judged.modLine k Line.finish).takeIdentity st k (high ++ low)).proceed st k := by
  have mode' : ((judged.modLine k Line.finish).slot k).seq.mode = .hail := by
    rw [Rack.slot_modLine_same, Rack.evidence_slot evidence k]
    exact mode
  have identity : (r.resultOf st k x .ok).identity = some (high ++ low) := by
    rw [Rack.resultOf, Exchange.record, hail, returned]
    rfl
  have line : (fun l : Line => (l.sureAfterOk (r.resultOf st k x .ok).kind).finish) = Line.finish := by
    rw [Rack.resultOf, Exchange.record, hail]
    rfl
  unfold Rack.exchangeOk
  dsimp only
  rw [hand, line, if_pos mode', identity]
  rfl

/-- What follows an identity that was taken: the next exchange at most. -/
theorem Rack.proceed_identified (st : Store) {r : Rack} {k : SlotIx} (active : r.quiesce = .active)
    (bench : r.bench.state = .idle) (still : (r.slot k).stay.draining = false) :
    (∃ (l : Line) (run : Option Nat), (r.proceed st k).slot k =
      { r.slot k with line := l, seq := { (r.slot k).seq with runStart := run } }) ∧
    (∀ j, j ≠ k → (r.proceed st k).slot j = r.slot j) ∧ (r.proceed st k).queue = r.queue ∧
    (r.proceed st k).notices = r.notices ∧ ((r.slot k).seq.mode = .off → r.proceed st k = r) := by
  rw [Rack.proceed_issues st (by rw [active]; decide) (Rack.unpended_of_idle bench) (.inl still)]
  obtain ⟨-, -, queue, -, -, notices⟩ := Rack.rest_issue st r k
  exact ⟨r.slot_issue st k, fun j other => r.slot_issue_ne st other, queue, notices, Rack.issue_off st r k⟩

/-- Settles O56. -/
theorem aHailReturnsTheIdentity : Obligations.AHailReturnsTheIdentity := by
  refine fun s k c x high low looks quiet hc powering still active idle mode replying hx hail =>
    ⟨fun first whole => ?_, fun second whole => ?_⟩
  · have row := exec_replyByteReceived (k := k) quiet whole
    rw [Rack.reply_more replying hx (by rw [hail, first]; decide), first] at row
    exact ⟨_, row, s.rack.slot_modLine_same k _, s.rack.onlySlot_modLine k _⟩
  · obtain ⟨judged, hjudged⟩ : ∃ judged, judged = s.rack.passItem s.store k (caseModel s.store c).header.path := ⟨_, rfl⟩
    have evidence : s.rack.evidence judged := hjudged ▸ s.rack.evidence_passItem s.store k _
    have only : Rack.onlySlot k s.rack judged := hjudged ▸ (s.rack.passItem_keeps s.store k _).1
    have hand := Rack.handResult_hail (st := s.store) hc (x := { x with returned := x.returned ++ [low] }) hail
    rw [← hjudged] at hand
    have row := exec_replyByteReceived (k := k) quiet whole
    rw [Rack.reply_last replying hx (by rw [hail, second]; exact Nat.le_refl 2),
      Rack.exchangeOk_hail hand evidence mode hail (congrArg (· ++ [low]) second)] at row
    obtain ⟨d, hd, kept⟩ := Rack.evidence_record evidence hc
    obtain ⟨model, -, -, stay⟩ := CaseRecord.evidence_keeps kept
    obtain ⟨-, -, -, -, board⟩ := CaseRecord.evidence_counts kept
    have state : d.state = .powering := (CaseRecord.evidence_run kept (.inl powering)).trans powering
    have stage : caseStage s.store d = caseStage s.store c := by
      rw [caseStage, caseStage, caseModel, caseModel, model, stay]
    have own := Rack.evidence_slot evidence k
    have fin := judged.slot_modLine_same k Line.finish
    have onlyFin := Rack.onlySlot_trans only (judged.onlySlot_modLine k Line.finish)
    have hd' : ((judged.modLine k Line.finish).slot k).record = some d := by rw [fin, hd]
    generalize judged.modLine k Line.finish = f at *
    have line : (f.slot k).line = (s.rack.slot k).line.finish := by rw [fin, own]
    obtain ⟨-, -, queue, quiesce, bench, others⟩ := onlyFin
    have queued : f.queued k = s.rack.queued k := by rw [Rack.queued, Rack.queued, queue]
    have watch : (f.slot k).watch = (s.rack.slot k).watch := by rw [fin, own]
    have stamp : (f.slot k).stamp = (judged.slot k).stamp := by rw [fin]
    have units : (f.slot k).units = (s.rack.slot k).units := by rw [fin, own]
    have rail : (f.slot k).rail = (s.rack.slot k).rail := by rw [fin, own]
    have seq : (f.slot k).seq = (s.rack.slot k).seq := by rw [fin, own]
    have armed := Watch.armedFrom_booted (caseStage s.store c).window (s.rack.slot k).watch
    by_cases known : c.boardId = none ∨ c.boardId = some (high ++ low)
    · have notSwapped : ∀ id, c.boardId = some id → id ≠ high ++ low → False := fun id same other => by
        rcases known with none | some
        · rw [none] at same
          cases same
        · exact other (Option.some.inj (same.symm.trans some))
      rw [← board] at known
      cases waits : s.rack.queued k with
      | false =>
        have taken := Rack.takeIdentity_runs (st := s.store) hd' state known (queued.trans waits)
        have entered := Rack.slot_enterRunning (id := high ++ low) hd' (st := s.store) d
        have ⟨_, _, queueT, quiesceT, benchT, othersT⟩ := Rack.onlySlot_trans (f.onlySlot_identified k (high ++ low))
          (Rack.onlySlot_enterRunning s.store _ k d)
        have told : ((f.identified k (high ++ low)).enterRunning s.store k d).notices.hasSlot k = true := by
          change ((f.identified k (high ++ low)).enter k .running).notices.hasSlot k = true
          simp
        rw [taken] at row
        generalize (f.identified k (high ++ low)).enterRunning s.store k d = t at *
        obtain ⟨⟨l, run, after⟩, othersP, queueP, notices, -⟩ := Rack.proceed_identified s.store (r := t) (k := k)
          (quiesceT.trans (quiesce.trans active)) ((congrArg Bench.state (benchT.trans bench)).trans idle)
          (by rw [entered]; exact (congrArg Stay.draining stay).trans still)
        rw [entered] at after
        refine ⟨_, judged, d, row, hjudged, hd, ?_, by rw [notices, told], fun _ => ⟨?_, ?_, ?_, fun j other => ?_, ?_,
          fun _ => ⟨?_, ?_, ?_, ?_⟩, fun q => ?_⟩, fun id same other => (notSwapped id same other).elim⟩
        · rw [after, stamp]
        · rw [after, units]
        · rw [after, rail]
        · rw [queueP, queueT, queue]
        · rw [othersP j other, othersT j other, others j other]
        · rw [after, stage, watch]
          exact armed
        · rw [after]
        · rw [after]
          rfl
        · rw [after]
          rfl
        · rw [after]
          rfl
        · cases q
      | true =>
        have taken := Rack.takeIdentity_waits (st := s.store) hd' state known (queued.trans waits)
        have entered := Rack.slot_enterWaitingOn (id := high ++ low) hd' (st := s.store) d
        have ⟨_, _, queueT, quiesceT, benchT, othersT⟩ := Rack.onlySlot_trans (f.onlySlot_identified k (high ++ low))
          (Rack.onlySlot_enterWaitingOn s.store _ k d)
        have told : ((f.identified k (high ++ low)).enterWaitingOn s.store k d).notices.hasSlot k = true := by
          change ((f.identified k (high ++ low)).enter k .waiting).notices.hasSlot k = true
          simp
        rw [taken] at row
        generalize (f.identified k (high ++ low)).enterWaitingOn s.store k d = t at *
        obtain ⟨-, -, -, -, off⟩ := Rack.proceed_identified s.store (r := t) (k := k)
          (quiesceT.trans (quiesce.trans active)) ((congrArg Bench.state (benchT.trans bench)).trans idle)
          (by rw [entered]; exact (congrArg Stay.draining stay).trans still)
        rw [off (by rw [entered])] at row
        refine ⟨t, judged, d, row, hjudged, hd, ?_, told, fun _ => ⟨?_, ?_, ?_, fun j other => ?_, ?_, fun q => ?_,
          fun _ => ⟨?_, ?_, ?_⟩⟩, fun id same other => (notSwapped id same other).elim⟩
        · rw [entered, stamp]
        · rw [entered, units]
        · rw [entered, rail]
        · rw [queueT, queue]
        · rw [othersT j other, others j other]
        · rw [entered, stage, watch]
          exact armed
        · cases q
        · rw [entered]
        · rw [entered, seq]
        · rw [entered, line]
          rfl
    · have swapped := Rack.takeIdentity_swapped (st := s.store) hd' state (by rwa [board])
      rw [swapped] at row
      obtain ⟨⟨l, -, -, after⟩, -, -, -, unqueued, -⟩ := Rack.endRun_proceed_spec s.store f k (.faulted .swapped)
      refine ⟨_, judged, d, row, hjudged, hd, ?_, Rack.hasSlot_endRun_proceed s.store f k _, fun own => absurd own known,
        fun id same other => ⟨?_, ?_, unqueued, ?_, ?_⟩⟩
      · rw [after, stamp]
      · rw [after, hd']
        rfl
      · rw [after]
      · rw [after]
        exact f.isOn_dropRun k
      · rw [after]
        exact f.mode_dropRun k

end Sys2Proof.Machine
end

section
/-! What an item does to a suspect, to its list and to its case, and the verdict (R29, R39 to R52). -/

namespace Sys2Proof.Machine

/-! ## A suspect (R40 to R46) -/

theorem Suspect.confirmTest_eq (h : Header) (x : Suspect) : x.confirmTest h = { x with
    state := if x.state = .opened ∧ h.confirmThreshold ≤ x.fails ∧ h.confirmSpread ≤ x.positionsSeen then .confirmed
      else x.state } := by
  unfold Suspect.confirmTest
  split
  · rfl
  · rfl

theorem Suspect.takeFail_reworked (h : Header) (f : Fail) {x : Suspect} (reworked : x.state = .reworked) :
    x.takeFail h f = (Suspect.fresh x.component x.serial true f).confirmTest h := by
  rw [Suspect.takeFail, if_pos reworked]

theorem Suspect.takeFail_added (h : Header) (f : Fail) {x : Suspect} (other : x.state ≠ .reworked) :
    x.takeFail h f = (x.addFail f).confirmTest h := by
  rw [Suspect.takeFail, if_neg other]

/-- How a suspect begins, after the confirmation test. -/
theorem Suspect.fresh_confirmTest (h : Header) (component serial : Nat) (recurred : Bool) (f : Fail) :
    (Suspect.fresh component serial recurred f).confirmTest h =
      { component := component
        state := if h.confirmThreshold ≤ 1 ∧ h.confirmSpread ≤ (if f.position.isSome then 1 else 0) then .confirmed
          else .opened
        serial := serial, fails := 1, hotFails := if f.phase = some .a then 1 else 0, passes := 0, quiet := 0
        positionsSeen := if f.position.isSome then 1 else 0, firstSeen := f.position, lastSeen := f.position
        symptoms := BitVec.twoPow 10 f.symptom.bit, recurred := recurred } := by
  rw [Suspect.confirmTest_eq]
  simp only [Suspect.fresh, Fail.hot, Symptom.set, true_and]

theorem Suspect.seeAt_same {position : Option Position} {x : Suspect} (same : position = none ∨ x.lastSeen = position) :
    x.seeAt position = x := by
  cases position with
  | none => rfl
  | some p => exact if_pos (same.resolve_left (by simp))

theorem Suspect.seeAt_other {p : Position} {x : Suspect} (other : x.lastSeen ≠ some p) :
    x.seeAt (some p) = { x with
      positionsSeen := min (x.positionsSeen + 1) 255, lastSeen := some p, firstSeen := some (x.firstSeen.getD p) } := by
  have first : (if x.firstSeen.isNone then some p else x.firstSeen) = some (x.firstSeen.getD p) := by
    cases x.firstSeen <;> rfl
  refine (if_neg other).trans ?_
  rw [first]
  rfl

/-- The suspect that an item is added to, before its position is applied. -/
def Suspect.counted (f : Fail) (x : Suspect) : Suspect :=
  { x with fails := min (x.fails + 1) 65535, hotFails := min (x.hotFails + f.hot) 65535, quiet := 0,
           symptoms := x.symptoms ||| f.symptom.set, state := if x.state = .cleared then .opened else x.state }

theorem Suspect.addFail_eq (f : Fail) (x : Suspect) : x.addFail f = (x.counted f).seeAt f.position := rfl

/-- What the position of an item leaves as it is. -/
theorem Suspect.seeAt_keeps (position : Option Position) (x : Suspect) : x.seeAt position = { x with
    positionsSeen := (x.seeAt position).positionsSeen, firstSeen := (x.seeAt position).firstSeen
    lastSeen := (x.seeAt position).lastSeen } := by
  by_cases same : position = none ∨ x.lastSeen = position
  · rw [Suspect.seeAt_same same]
  · cases position with
    | none => exact absurd (.inl rfl) same
    | some p => rw [Suspect.seeAt_other fun h => same (.inr h)]

/-- A suspect that is not REWORKED is OPEN after an item unless it was or becomes CONFIRMED (R41, R43). -/
theorem SuspectState.after_fail {state : SuspectState} (other : state ≠ .reworked) (test : Prop) [Decidable test] :
    ((if (if state = .cleared then SuspectState.opened else state) = .opened ∧ test then SuspectState.confirmed
        else if state = .cleared then SuspectState.opened else state) = .confirmed ↔ state = .confirmed ∨ test) ∧
    ((if (if state = .cleared then SuspectState.opened else state) = .opened ∧ test then SuspectState.confirmed
        else if state = .cleared then SuspectState.opened else state) ≠ .confirmed →
      (if (if state = .cleared then SuspectState.opened else state) = .opened ∧ test then SuspectState.confirmed
        else if state = .cleared then SuspectState.opened else state) = .opened) := by
  cases state with
  | reworked => exact absurd rfl other
  | confirmed => simp
  | opened => simp
  | cleared => simp

theorem Suspect.takeFail_state (h : Header) (f : Fail) {x : Suspect} (other : x.state ≠ .reworked) :
    ((x.takeFail h f).state = .confirmed ↔ x.state = .confirmed ∨
      h.confirmThreshold ≤ min (x.fails + 1) 65535 ∧ h.confirmSpread ≤ (x.takeFail h f).positionsSeen) ∧
    ((x.takeFail h f).state ≠ .confirmed → (x.takeFail h f).state = .opened) := by
  rw [Suspect.takeFail_added h f other, Suspect.confirmTest_eq, Suspect.addFail_eq, Suspect.seeAt_keeps]
  exact SuspectState.after_fail other _

/-- The counts of an OPEN, CONFIRMED or CLEARED suspect after an item (R41). -/
theorem Suspect.takeFail_counts (h : Header) (f : Fail) {x : Suspect} (other : x.state ≠ .reworked) :
    ∃ state, x.takeFail h f = { x.counted f with
      state := state, positionsSeen := ((x.counted f).seeAt f.position).positionsSeen
      firstSeen := ((x.counted f).seeAt f.position).firstSeen, lastSeen := ((x.counted f).seeAt f.position).lastSeen } :=
  ⟨_, (Suspect.takeFail_added h f other).trans
    ((congrArg (Suspect.confirmTest h) ((x.counted f).seeAt_keeps f.position)).trans (Suspect.confirmTest_eq h _))⟩

/-- The positions of an OPEN, CONFIRMED or CLEARED suspect after an item (R42). -/
theorem Suspect.takeFail_positions (h : Header) (f : Fail) {x : Suspect} (other : x.state ≠ .reworked) :
    (f.position = none ∨ x.lastSeen = f.position →
      (x.takeFail h f).positionsSeen = x.positionsSeen ∧ (x.takeFail h f).firstSeen = x.firstSeen ∧
        (x.takeFail h f).lastSeen = x.lastSeen) ∧
    ∀ p, f.position = some p → x.lastSeen ≠ some p →
      (x.takeFail h f).positionsSeen = min (x.positionsSeen + 1) 255 ∧ (x.takeFail h f).lastSeen = some p ∧
        (x.takeFail h f).firstSeen = some (x.firstSeen.getD p) := by
  obtain ⟨state, after⟩ := Suspect.takeFail_counts h f other
  rw [after]
  refine ⟨fun same => ?_, fun p at' new => ?_⟩
  · rw [Suspect.seeAt_same (x := x.counted f) same]
    exact ⟨rfl, rfl, rfl⟩
  · rw [at', Suspect.seeAt_other (x := x.counted f) new]
    exact ⟨rfl, rfl, rfl⟩

theorem Suspect.takePass_eq (h : Header) (x : Suspect) : x.takePass h = { x with
    passes := min (x.passes + 1) 65535, quiet := min (x.quiet + 1) 65535
    state := if x.state = .opened ∧ h.clearCount ≠ 0 ∧ h.clearCount ≤ min (x.quiet + 1) 65535 then .cleared
      else x.state } := by
  by_cases test : x.state = .opened ∧ h.clearCount ≠ 0 ∧ h.clearCount ≤ min (x.quiet + 1) 65535
  · rw [if_pos test]
    exact if_pos test
  · rw [if_neg test]
    exact if_neg test

/-! ## The verdict (R29) -/

theorem verdictOf_spec (l : List Suspect) :
    (verdictOf l = .fail ↔ ∃ x ∈ l, x.state = .confirmed) ∧
    (verdictOf l = .marginal ↔ (∀ x ∈ l, x.state ≠ .confirmed) ∧ ∃ x ∈ l, x.state = .opened) ∧
    (verdictOf l = .pass ↔ ∀ x ∈ l, x.state = .cleared ∨ x.state = .reworked) := by
  have settled (x : Suspect) : (x.state = .cleared ∨ x.state = .reworked) ↔ ¬ x.state = .confirmed ∧ ¬ x.state = .opened := by
    cases x.state <;> simp
  have confirmed : (l.any fun x => x.state == .confirmed) = true ↔ ∃ x ∈ l, x.state = .confirmed := by simp
  have opened : (l.any fun x => x.state == .opened) = true ↔ ∃ x ∈ l, x.state = .opened := by simp
  unfold verdictOf
  simp only [settled, confirmed, opened]
  by_cases fail : ∃ x ∈ l, x.state = .confirmed
  · obtain ⟨x, mem, state⟩ := fail
    rw [if_pos ⟨x, mem, state⟩]
    exact ⟨iff_of_true rfl ⟨x, mem, state⟩, iff_of_false (by decide) fun ⟨clean, _⟩ => clean x mem state,
      iff_of_false (by decide) fun all => (all x mem).1 state⟩
  · have unconfirmed : ∀ x ∈ l, x.state ≠ .confirmed := fun x mem state => fail ⟨x, mem, state⟩
    rw [if_neg fail]
    by_cases marginal : ∃ x ∈ l, x.state = .opened
    · obtain ⟨x, mem, state⟩ := marginal
      rw [if_pos ⟨x, mem, state⟩]
      exact ⟨iff_of_false (by decide) fail, iff_of_true rfl ⟨unconfirmed, x, mem, state⟩,
        iff_of_false (by decide) fun all => (all x mem).2 state⟩
    · rw [if_neg marginal]
      exact ⟨iff_of_false (by decide) fail, iff_of_false (by decide) fun ⟨_, held⟩ => marginal held,
        iff_of_true rfl fun x mem => ⟨unconfirmed x mem, fun state => marginal ⟨x, mem, state⟩⟩⟩

/-! ## A list that takes a suspect (R38, R39, R43, R47) -/

/-- The notices of a rack in which a suspect of slot `k` has become CONFIRMED, or not. -/
theorem Rack.notices_noticeConfirmed {r r' : Rack} (same : r'.notices = r.notices) (k : SlotIx) (before : Option SuspectState)
    (after : SuspectState) : (r'.noticeConfirmed k before after).notices =
      if after = .confirmed ∧ before ≠ some .confirmed then (r.noticeSlot k).notices else r.notices := by
  unfold Rack.noticeConfirmed
  split
  · exact Rack.notices_noticeSlot_congr k same
  · exact same

theorem Rack.onlySlot_noticeConfirmed (r : Rack) (k : SlotIx) (before : Option SuspectState) (after : SuspectState) :
    Rack.onlySlot k r (r.noticeConfirmed k before after) := by
  unfold Rack.noticeConfirmed
  split
  · exact ⟨rfl, rfl, rfl, rfl, rfl, fun _ _ => r.slot_noticeSlot _ _⟩
  · exact r.onlySlot_refl k

theorem Rack.onlySlot_setList (r : Rack) (k : SlotIx) (l : List Suspect) : Rack.onlySlot k r (r.setList k l) :=
  r.onlySlot_modCase k _

/-- The suspect `x` of slot `k`'s case becomes `y`. -/
def Rack.replaces (r : Rack) (k : SlotIx) (c : CaseRecord) (x y : Suspect) : Rack :=
  (r.setList k (rankPlace y c.suspects)).noticeConfirmed k (some x.state) y.state

theorem Rack.replaces_spec {r : Rack} {k : SlotIx} {c : CaseRecord} (hc : (r.slot k).record = some c) (x y : Suspect) :
    (r.replaces k c x y).slot k = { r.slot k with record := some (c.withList (rankPlace y c.suspects)) } ∧
    Rack.onlySlot k r (r.replaces k c x y) ∧
    (r.replaces k c x y).notices =
      if y.state = .confirmed ∧ x.state ≠ .confirmed then (r.noticeSlot k).notices else r.notices := by
  refine ⟨?_, Rack.onlySlot_trans (r.onlySlot_setList k _) (Rack.onlySlot_noticeConfirmed _ k _ _), ?_⟩
  · rw [Rack.replaces, Rack.slot_noticeConfirmed, Rack.slot_setList_same, hc, Option.map_some]
  · exact (Rack.notices_noticeConfirmed (r := r) (r' := r.setList k (rankPlace y c.suspects)) rfl k _ _).trans (by simp)

/-- A rack whose stamp moves when a state has. -/
theorem Rack.stamped_spec (r : Rack) (k : SlotIx) (stays : Prop) [Decidable stays] :
    ((if stays then r else r.stamp k).slot k =
      { r.slot k with stamp := if stays then (r.slot k).stamp else (r.slot k).stamp + 1 }) ∧
    Rack.onlySlot k r (if stays then r else r.stamp k) ∧ (if stays then r else r.stamp k).notices = r.notices := by
  by_cases h : stays
  · rw [if_pos h, if_pos h]
    exact ⟨rfl, r.onlySlot_refl k, rfl⟩
  · rw [if_neg h, if_neg h]
    exact ⟨r.slot_stamp_same k, r.onlySlot_stamp k, rfl⟩

/-! ## An entry for a new suspect (R37, R40, R49 to R52) -/

theorem CaseRecord.withList_withList (c : CaseRecord) (l l' : List Suspect) : (c.withList l).withList l' = c.withList l' := by
  unfold CaseRecord.withList
  cases c.state <;> rfl

/-- The case that an entry is found for has given up a suspect at most. -/
theorem Rack.entryFound_keeps {r r' : Rack} {k : SlotIx} {c : CaseRecord} (hc : (r.slot k).record = some c)
    (found : r.entryFound r' k) :
    ∃ d : CaseRecord, (r'.slot k).record = some d ∧ (∀ l, d.withList l = c.withList l) ∧ d.nextSerial = c.nextSerial ∧
      d.model = c.model ∧ (r'.slot k).suspects = d.suspects ∧ (r'.slot k).stamp = (r.slot k).stamp ∧
      r'.notices = r.notices ∧ r'.queue = r.queue := by
  rcases found with ⟨-, rfl⟩ | ⟨-, l₁, l₂, y, -, -, -, rfl⟩ | ⟨-, -, j, l₁, l₂, y, other, -, -, -, -, rfl⟩
  · exact ⟨c, hc, fun _ => rfl, rfl, rfl, Rack.suspects_of_record hc, rfl, rfl, rfl⟩
  · have own : ((r.setList k (l₁ ++ l₂)).slot k).record = some (c.withList (l₁ ++ l₂)) := by
      rw [Rack.slot_setList_same, hc, Option.map_some]
    exact ⟨_, own, c.withList_withList _, rfl, rfl, Rack.suspects_of_record own, by rw [Rack.slot_setList_same], rfl, rfl⟩
  · have own : ((r.setList j (l₁ ++ l₂)).stamp j).slot k = r.slot k := by
      rw [Rack.slot_stamp_ne _ (Ne.symm other), Rack.slot_setList_ne _ _ (Ne.symm other)]
    rw [own]
    exact ⟨c, hc, fun _ => rfl, rfl, rfl, Rack.suspects_of_record hc, rfl, rfl, rfl⟩

/-- The suspect that a FAIL item creates. -/
def Suspect.created (h : Header) (component serial : Nat) (f : Fail) : Suspect :=
  { component := component
    state := if h.confirmThreshold ≤ 1 ∧ h.confirmSpread ≤ (if f.position.isSome then 1 else 0) then .confirmed else .opened
    serial := serial, fails := 1, hotFails := if f.phase = some .a then 1 else 0, passes := 0, quiet := 0
    positionsSeen := if f.position.isSome then 1 else 0, firstSeen := f.position, lastSeen := f.position
    symptoms := BitVec.twoPow 10 f.symptom.bit, recurred := false }

/-- A case that took a new suspect. -/
def CaseRecord.accusing (c : CaseRecord) (y : Suspect) (l : List Suspect) : CaseRecord :=
  { c.withList (rankPlace y l) with nextSerial := min (c.nextSerial + 1) 65535 }

theorem Rack.createSuspect_spec {st : Store} {r r' : Rack} {k : SlotIx} {c : CaseRecord} (hc : (r.slot k).record = some c)
    (found : r.entryFound r' k) (component : Nat) (f : Fail) {y : Suspect}
    (hy : y = Suspect.created (caseModel st c).header component c.nextSerial f) :
    (r'.createSuspect st k component f).slot k =
      { r'.slot k with record := some (c.accusing y (r'.slot k).suspects) } ∧
    Rack.onlySlot k r' (r'.createSuspect st k component f) ∧
    (r'.createSuspect st k component f).notices =
      if y.state = .confirmed then (r.noticeSlot k).notices else r.notices := by
  obtain ⟨d, hd, list, serial, model, suspects, -, notices, -⟩ := Rack.entryFound_keeps hc found
  have made : r'.createSuspect st k component f =
      ((r'.setList k (rankPlace y d.suspects)).modCase k fun c =>
        { c with nextSerial := bump Config.max16 c.nextSerial }).noticeConfirmed k none y.state := by
    unfold Rack.createSuspect
    rw [hd]
    dsimp only
    rw [Suspect.fresh_confirmTest, serial, caseModel, model, ← caseModel, hy]
    rfl
  rw [made]
  refine ⟨?_, Rack.onlySlot_trans (Rack.onlySlot_trans (r'.onlySlot_setList k _) (Rack.onlySlot_modCase _ k _))
    (Rack.onlySlot_noticeConfirmed _ k _ _), ?_⟩
  · rw [Rack.slot_noticeConfirmed, Rack.slot_modCase_same, Rack.slot_setList_same, hd, suspects]
    simp only [Option.map_some, CaseRecord.accusing, ← list]
    rw [← serial]
    rfl
  · exact (Rack.notices_noticeConfirmed (r := r) (r' := (r'.setList k (rankPlace y d.suspects)).modCase k fun c =>
      { c with nextSerial := bump Config.max16 c.nextSerial }) notices k none y.state).trans (by simp)

section Take
variable {st : Store} {r : Rack} {k : SlotIx} {c : CaseRecord} {component : Nat} (hc : (r.slot k).record = some c)
  (low : 1 ≤ component) (high : component ≤ (caseModel st c).components.length) (f : Fail)
include hc low high

theorem Rack.takeFail_known {x : Suspect} (held : suspectFor component c.suspects = some x) :
    r.takeFail st k component f = some (r.replaces k c x (x.takeFail (caseModel st c).header f),
      (x.takeFail (caseModel st c).header f).state != x.state) := by
  unfold Rack.takeFail
  rw [hc]
  dsimp only
  rw [if_neg (by omega), held]
  rfl

theorem Rack.takeFail_unknown (free : suspectFor component c.suspects = none) :
    r.takeFail st k component f = (r.findEntry k).map fun r => (r.createSuspect st k component f, true) := by
  unfold Rack.takeFail
  rw [hc]
  dsimp only
  rw [if_neg (by omega), free]

end Take

theorem Rack.passItem_known {st : Store} {r : Rack} {k : SlotIx} {c : CaseRecord} {component : Nat}
    (hc : (r.slot k).record = some c) {x : Suspect} (held : suspectFor component c.suspects = some x) :
    r.passItem st k component =
      if (x.takePass (caseModel st c).header).state = x.state then
        r.setList k (rankPlace (x.takePass (caseModel st c).header) c.suspects)
      else (r.setList k (rankPlace (x.takePass (caseModel st c).header) c.suspects)).stamp k := by
  unfold Rack.passItem
  rw [hc]
  dsimp only
  rw [held]

theorem Rack.passItem_unknown {st : Store} {r : Rack} {k : SlotIx} {c : CaseRecord} {component : Nat}
    (hc : (r.slot k).record = some c) (free : suspectFor component c.suspects = none) : r.passItem st k component = r := by
  unfold Rack.passItem
  rw [hc]
  dsimp only
  rw [free]

/-- A FAIL that found no entry. -/
theorem Rack.unplaced_spec {r : Rack} {k : SlotIx} {c : CaseRecord} (hc : (r.slot k).record = some c) :
    (r.unplaced k).slot k =
      { r.slot k with record := some { c with unplaced := min (c.unplaced + 1) 255, poolFull := true } } ∧
    Rack.onlySlot k r (r.unplaced k) ∧
    (r.unplaced k).notices = if c.poolFull then r.notices else (r.noticeSlot k).notices := by
  have marked := r.slot_modCase_same k fun c => { c with unplaced := bump Config.max8 c.unplaced, poolFull := true }
  rw [hc, Option.map_some] at marked
  have only := r.onlySlot_modCase k fun c => { c with unplaced := bump Config.max8 c.unplaced, poolFull := true }
  unfold Rack.unplaced
  rw [hc]
  dsimp only
  cases c.poolFull with
  | true => exact ⟨marked, only, rfl⟩
  | false => exact ⟨(Rack.slot_noticeSlot _ _ _).trans marked, only, rfl⟩

/-- Settles O30. -/
theorem failItemsAndTheVerdict : Obligations.FailItemsAndTheVerdict := by
  refine ⟨fun h f x => ⟨fun reworked => ?_, fun other => ?_, x.takePass_eq h⟩, fun st r k c component hc =>
    ⟨Rack.passItem_unknown hc, fun x y held hy => ?_, fun f low high =>
      ⟨fun x y held hy => ?_, fun r₁ y free found hy => ?_, fun free full => ?_⟩⟩, verdictOf_spec⟩
  · rw [Suspect.takeFail_reworked h f reworked, Suspect.fresh_confirmTest]
  · obtain ⟨state, after⟩ := Suspect.takeFail_counts h f other
    obtain ⟨same, new⟩ := Suspect.takeFail_positions h f other
    obtain ⟨confirmed, opened⟩ := Suspect.takeFail_state h f other
    refine ⟨?_, ?_, ?_, ?_, same, new, ?_, ?_, ?_, ?_, confirmed, opened⟩
    all_goals rw [after]; rfl
  · subst hy
    rw [Rack.passItem_known hc held]
    obtain ⟨own, only, notices⟩ := (r.setList k (rankPlace (x.takePass (caseModel st c).header) c.suspects)).stamped_spec k
      ((x.takePass (caseModel st c).header).state = x.state)
    refine ⟨?_, Rack.onlySlot_trans (r.onlySlot_setList k _) only, notices⟩
    rw [own, Rack.slot_setList_same, hc, Option.map_some]
  · subst hy
    obtain ⟨own, only, notices⟩ := Rack.replaces_spec hc x (x.takeFail (caseModel st c).header f)
    obtain ⟨own', only', notices'⟩ := (r.replaces k c x (x.takeFail (caseModel st c).header f)).stamped_spec k
      ((x.takeFail (caseModel st c).header f).state = x.state)
    have item : r.failItem st k component f = if (x.takeFail (caseModel st c).header f).state = x.state then
        r.replaces k c x (x.takeFail (caseModel st c).header f)
        else (r.replaces k c x (x.takeFail (caseModel st c).header f)).stamp k := by
      unfold Rack.failItem
      rw [Rack.takeFail_known hc low high f held]
      dsimp only
      by_cases stays : (x.takeFail (caseModel st c).header f).state = x.state
      · rw [if_pos stays, stays, bne_self_eq_false, if_neg (by decide)]
      · rw [if_neg stays, if_pos (bne_iff_ne.mpr stays)]
    rw [item]
    exact ⟨by rw [own', own], Rack.onlySlot_trans only only', notices'.trans notices⟩
  · have item : r.failItem st k component f = (r₁.createSuspect st k component f).stamp k := by
      unfold Rack.failItem
      rw [Rack.takeFail_unknown hc low high f free, Rack.findEntry_some.mpr found]
      rfl
    obtain ⟨own, ⟨-, -, -, -, -, others⟩, notices⟩ := Rack.createSuspect_spec (st := st) hc found component f hy
    obtain ⟨-, -, -, -, -, -, stamp, -⟩ := Rack.entryFound_keeps hc found
    rw [item]
    refine ⟨?_, fun j other => ?_, notices⟩
    · rw [Rack.slot_stamp_same, own, stamp]
      rfl
    · rw [Rack.slot_stamp_ne _ other, others j other]
  · have item : r.failItem st k component f = r.unplaced k := by
      unfold Rack.failItem
      rw [Rack.takeFail_unknown hc low high f free, Rack.findEntry_none.mpr full]
      rfl
    rw [item]
    exact Rack.unplaced_spec hc

end Sys2Proof.Machine
end

section
/-! SUSPECT NOTE: a FAIL by hand, a confirmation and a clearing (R53, R59 to R62). -/

namespace Sys2Proof.Machine

/-! ## The checks and the answer of a note (R59) -/

section Note
variable {s : State} {a : NoteArgs} {k : SlotIx} {c : CaseRecord} (slot : a.slot.toNat = k.val + 1)
  (use : s.rack.inUse k = true) (hc : (s.rack.slot k).record = some c) (stamp : a.stamp = (s.rack.slot k).stamp)
  (low : 1 ≤ a.component.toNat) (high : a.component.toNat ≤ (caseModel s.store c).components.length)
include slot use hc stamp low high

theorem State.onNote_open (act : SlotIx → CaseRecord → Reply) : s.onNote a act = act k c := by
  have limit : s.componentLimit k = (caseModel s.store c).components.length := by
    rw [State.componentLimit, hc]
  unfold State.onNote
  rw [Rack.slotArg_eq slot use]
  dsimp only
  rw [limit, within_iff.mpr ⟨low, high⟩, if_neg (by decide), hc]
  exact if_neg (not_not_intro stamp)

/-- The FAIL item of a note. -/
def manualFail : Fail := ⟨.manual, none, none⟩

theorem suspectNoteFail_taken {r : Rack} {moved : Bool}
    (taken : s.rack.takeFail s.store k a.component.toNat manualFail = some (r, moved)) :
    suspectNoteFail a s = s.noted k a.component.toNat r := by
  rw [suspectNoteFail, State.onNote_open slot use hc stamp low high]
  rw [← manualFail, taken]

theorem suspectNoteFail_full (full : s.rack.takeFail s.store k a.component.toNat manualFail = none) :
    suspectNoteFail a s = refuse s .full := by
  rw [suspectNoteFail, State.onNote_open slot use hc stamp low high]
  rw [← manualFail, full]

theorem suspectNoteConfirm_unknown (free : suspectFor a.component.toNat c.suspects = none) :
    suspectNoteConfirm a s = refuse s .state := by
  rw [suspectNoteConfirm, State.onNote_open slot use hc stamp low high]
  rw [free]

theorem suspectNoteClear_unknown (free : suspectFor a.component.toNat c.suspects = none) :
    suspectNoteClear a s = refuse s .state := by
  rw [suspectNoteClear, State.onNote_open slot use hc stamp low high]
  rw [free]

variable {x : Suspect} (held : suspectFor a.component.toNat c.suspects = some x)
include held

theorem suspectNoteConfirm_known : suspectNoteConfirm a s = if x.state = .reworked then refuse s .state
    else s.noted k a.component.toNat (s.rack.replaces k c x { x with state := .confirmed }) := by
  rw [suspectNoteConfirm, State.onNote_open slot use hc stamp low high]
  rw [held]
  rfl

theorem suspectNoteClear_known : suspectNoteClear a s =
    if x.state = .confirmed ∨ x.state = .reworked then refuse s .state
    else s.noted k a.component.toNat (s.rack.replaces k c x { x with state := .cleared }) := by
  rw [suspectNoteClear, State.onNote_open slot use hc stamp low high]
  rw [held]
  rfl

end Note

/-- A taken note answers with the case and the suspect, its stamp moved. -/
theorem exec_noted {s : State} (h : s.takesRequests) {i : Instr} {a : NoteArgs} {owner : NoteArgs → State → Reply}
    (row : exec i s = .next (s.request .setOnly (some a) owner)) {k : SlotIx} {n : Nat} {r : Rack}
    (taken : owner a s.completed = s.completed.noted k n r) :
    exec i s = .next ((s.withRack (r.stamp k)).answered .done (casePrefix (r.stamp k) k ++ noteBody (r.stamp k) k n)) := by
  rw [exec_taken h row, taken]
  rfl

/-! ## The list after a new suspect (R36, R38) -/

theorem suspectFor_none {n : Nat} {l : List Suspect} : suspectFor n l = none ↔ ∀ x ∈ l, x.component ≠ n := by
  simp [suspectFor]

theorem suspectFor_rankInsert {y : Suspect} {l : List Suspect} (new : ∀ x ∈ l, x.component ≠ y.component) :
    suspectFor y.component (rankInsert y l) = some y := by
  induction l with
  | nil => simp [rankInsert, suspectFor]
  | cons x xs ih =>
    unfold rankInsert
    split
    · simp [suspectFor]
    · have first : (x.component == y.component) = false := beq_false_of_ne (new x (by simp))
      rw [suspectFor, List.find?_cons, first]
      exact ih fun z hz => new z (by simp [hz])

theorem rankRemove_new {n : Nat} {l : List Suspect} (new : ∀ x ∈ l, x.component ≠ n) : rankRemove n l = l :=
  List.filter_eq_self.mpr fun x hx => bne_iff_ne.mpr (new x hx)

/-- A suspect of a new component. -/
theorem rankPlace_new {y : Suspect} {l : List Suspect} (free : suspectFor y.component l = none) :
    suspectFor y.component (rankPlace y l) = some y ∧ (rankPlace y l).length = l.length + 1 := by
  have new := suspectFor_none.mp free
  rw [rankPlace, rankRemove_new new]
  exact ⟨suspectFor_rankInsert new, (rankInsert_perm y l).length_eq⟩

/-- The suspect that a note creates. -/
def Suspect.manual (component serial : Nat) : Suspect :=
  { component := component, state := .opened, serial := serial, fails := 1, hotFails := 0, passes := 0, quiet := 0,
    positionsSeen := 0, firstSeen := none, lastSeen := none, symptoms := 512, recurred := false }

theorem Suspect.created_manual {h : Header} (spread : 1 ≤ h.confirmSpread) (component serial : Nat) :
    Suspect.created h component serial manualFail = Suspect.manual component serial := by
  have test : ¬ (h.confirmThreshold ≤ 1 ∧ h.confirmSpread ≤ (if manualFail.position.isSome then 1 else 0)) := by
    rintro ⟨-, low⟩
    exact absurd (Nat.le_trans spread low) (by decide)
  rw [Suspect.created, if_neg test]
  rfl

/-- Settles O28. -/
theorem notesAccuseConfirmAndClear : Obligations.NotesAccuseConfirmAndClear := by
  refine ⟨fun s a k c h slot use hc stamp low high free => ?_, fun s a k c x h slot use hc stamp low high held => ?_⟩
  · have unknown := Rack.takeFail_unknown hc low high manualFail free
    have accuses (r₁ : Rack) (found : s.rack.entryFound r₁ k) :
        exec (.suspectNoteFail (some a)) s = .next ((s.withRack
            ((r₁.createSuspect s.store k a.component.toNat manualFail).stamp k)).answered .done
          (casePrefix ((r₁.createSuspect s.store k a.component.toNat manualFail).stamp k) k ++
            noteBody ((r₁.createSuspect s.store k a.component.toNat manualFail).stamp k) k a.component.toNat)) :=
      exec_noted h (i := .suspectNoteFail (some a)) rfl
        (suspectNoteFail_taken (s := s.completed) slot use hc stamp low high (moved := true)
          (unknown.trans (by rw [Rack.findEntry_some.mpr found]; rfl)))
    refine ⟨fun room spread => ?_, fun r₁ found spread => ?_, fun full => ?_, ?_, ?_⟩
    · obtain ⟨own, only, notices⟩ := Rack.createSuspect_spec (st := s.store) (r' := s.rack) hc (.inl ⟨room, rfl⟩)
        a.component.toNat manualFail rfl
      rw [Suspect.created_manual spread, Rack.suspects_of_record hc] at own
      obtain ⟨mine, more⟩ := rankPlace_new (y := Suspect.manual a.component.toNat c.nextSerial) free
      have stamped := (s.rack.createSuspect s.store k a.component.toNat manualFail).slot_stamp_same k
      rw [own] at stamped
      refine ⟨_, accuses _ (.inl ⟨room, rfl⟩), ?_, ?_, ?_, Rack.onlySlot_trans only (Rack.onlySlot_stamp _ k), ?_⟩
      · rw [stamped]
        exact mine
      · rw [stamped, Slot.suspectCount_eq, Slot.suspectCount_eq, Rack.suspects_of_record hc]
        exact more
      · rw [stamped]
      · refine notices.trans ?_
        rw [Suspect.created_manual spread]
        rfl
    · obtain ⟨own, ⟨-, -, queue, -, -, others⟩, notices⟩ := Rack.createSuspect_spec (st := s.store) hc found
        a.component.toNat manualFail rfl
      obtain ⟨-, -, -, -, -, -, same, -, queue'⟩ := Rack.entryFound_keeps hc found
      rw [Suspect.created_manual spread] at own notices
      refine ⟨_, accuses r₁ found, ?_, fun j other => ?_, queue.trans queue', notices⟩
      · rw [Rack.slot_stamp_same, own, same]
        rfl
      · rw [Rack.slot_stamp_ne _ other, others j other]
    · have none : s.rack.takeFail s.store k a.component.toNat manualFail = none := by
        rw [unknown, Rack.findEntry_none.mpr full]
        rfl
      rw [exec_taken h (c := .suspectNoteFail (some a)) rfl,
        suspectNoteFail_full (s := s.completed) slot use hc stamp low high none, State.after_refuse]
    · rw [exec_taken h (c := .suspectNoteConfirm (some a)) rfl,
        suspectNoteConfirm_unknown (s := s.completed) slot use hc stamp low high free, State.after_refuse]
    · rw [exec_taken h (c := .suspectNoteClear (some a)) rfl,
        suspectNoteClear_unknown (s := s.completed) slot use hc stamp low high free, State.after_refuse]
  · have confirm := suspectNoteConfirm_known (s := s.completed) slot use hc stamp low high held
    have clear := suspectNoteClear_known (s := s.completed) slot use hc stamp low high held
    have stamped (y : Suspect) : ((s.rack.replaces k c x y).stamp k).slot k = { s.rack.slot k with
        record := some (c.withList (rankPlace y c.suspects)), stamp := (s.rack.slot k).stamp + 1 } := by
      rw [Rack.slot_stamp_same, (Rack.replaces_spec hc x y).1]
    have only (y : Suspect) : Rack.onlySlot k s.rack ((s.rack.replaces k c x y).stamp k) :=
      Rack.onlySlot_trans (Rack.replaces_spec hc x y).2.1 (Rack.onlySlot_stamp _ k)
    have notices (y : Suspect) := (Rack.replaces_spec hc x y).2.2
    refine ⟨?_, fun other => ?_, fun judged => ?_, fun reworked => ⟨?_, ?_⟩, fun confirmed => ?_⟩
    · exact ⟨_, _, rfl, exec_noted h (i := .suspectNoteFail (some a)) rfl
        (suspectNoteFail_taken (s := s.completed) slot use hc stamp low high
          (Rack.takeFail_known hc low high manualFail held)), stamped _, only _, notices _⟩
    · rw [if_neg other] at confirm
      refine ⟨_, exec_noted h (i := .suspectNoteConfirm (some a)) rfl confirm, stamped _, only _, (notices _).trans ?_⟩
      by_cases confirmed : x.state = .confirmed
      · rw [if_pos confirmed, if_neg fun ⟨_, new⟩ => new confirmed]
      · rw [if_neg confirmed, if_pos ⟨rfl, confirmed⟩]
    · rw [if_neg fun settled => by rcases judged with h | h <;> simp [h] at settled] at clear
      exact ⟨_, exec_noted h (i := .suspectNoteClear (some a)) rfl clear, stamped _, only _,
        (notices _).trans (if_neg fun ⟨no, _⟩ => by cases no)⟩
    · rw [exec_taken h (c := .suspectNoteConfirm (some a)) rfl, confirm, if_pos reworked, State.after_refuse]
    · rw [exec_taken h (c := .suspectNoteClear (some a)) rfl, clear, if_pos (.inr reworked), State.after_refuse]
    · rw [exec_taken h (c := .suspectNoteClear (some a)) rfl, clear, if_pos (.inl confirmed), State.after_refuse]

end Sys2Proof.Machine
end

section
/-! REWORK (R55 to R58). -/

namespace Sys2Proof.Machine

/-! ## The list after a REWORK (R38, R56, R57) -/

theorem ReworkTarget.selects_range (m : Model) (first last : Addr) (x : Suspect) :
    (ReworkTarget.range first last).selects m x = true ↔ ∃ y low high, m.components[x.component - 1]? = some y ∧
      y.range = some (low, high) ∧ low ≤ last ∧ first ≤ high := by
  unfold ReworkTarget.selects
  cases entry : m.components[x.component - 1]? with
  | none => simp
  | some y =>
    cases range : y.range with
    | none => simp [range]
    | some ends =>
      obtain ⟨low, high⟩ := ends
      simp [range]

theorem reworkList_spec {m : Model} {t : ReworkTarget} {l : List Suspect} {selected : Suspect → Prop}
    (selects : ∀ x, t.selects m x = true ↔ selected x) :
    (∀ y, y ∈ reworkList m t l ↔ (y ∈ l ∧ ¬ selected y) ∨ ∃ x ∈ l, selected x ∧ y = x.rework) ∧
    (reworkList m t l).length = l.length ∧
    ((l.map (·.component)).Nodup → (reworkList m t l).Pairwise fun x y => x.before y = true) := by
  have perm := rankSort_perm (l.map fun x => if t.selects m x then x.rework else x)
  refine ⟨fun y => ?_, ?_, fun distinct => ?_⟩
  · rw [reworkList, perm.mem_iff, List.mem_map]
    constructor
    · rintro ⟨x, mem, rfl⟩
      by_cases chosen : t.selects m x = true
      · exact .inr ⟨x, mem, (selects x).mp chosen, if_pos chosen⟩
      · rw [if_neg chosen]
        exact .inl ⟨mem, fun h => chosen ((selects x).mpr h)⟩
    · rintro (⟨mem, spared⟩ | ⟨x, mem, chosen, rfl⟩)
      · exact ⟨y, mem, if_neg fun h => spared ((selects y).mp h)⟩
      · exact ⟨x, mem, if_pos ((selects x).mpr chosen)⟩
  · rw [reworkList, perm.length_eq, List.length_map]
  · have components : (l.map fun x => if t.selects m x then x.rework else x).map (·.component) = l.map (·.component) := by
      rw [List.map_map]
      refine List.map_congr_left fun x _ => ?_
      dsimp only [Function.comp]
      split
      · rfl
      · rfl
    exact (ranked_rankSort (components ▸ distinct)).1

/-! ## The case (R57, R58) -/

theorem Rack.reworkCase_unselected {st : Store} {r : Rack} {k : SlotIx} {c : CaseRecord} {t : ReworkTarget}
    (none : ∀ x ∈ c.suspects, ¬ t.selects (caseModel st c) x = true) :
    r.reworkCase st k c t = r.stamp k := by
  unfold Rack.reworkCase
  refine if_neg fun some => ?_
  obtain ⟨x, mem, chosen⟩ := List.any_eq_true.mp some
  exact none x mem chosen

section Case
variable {st : Store} {r : Rack} {k : SlotIx} {c : CaseRecord} {t : ReworkTarget} (hc : (r.slot k).record = some c)
include hc

/-- The case of a rack whose list is reworked. -/
def CaseRecord.withRework (c : CaseRecord) (l : List Suspect) : CaseRecord := { c.withList l with poolFull := false }

/-- The rack whose list is reworked, before its case is taken to READY. -/
def Rack.withRework (r : Rack) (k : SlotIx) (l : List Suspect) : Rack :=
  (r.setList k l).modCase k fun c => { c with poolFull := false }

theorem Rack.withRework_spec (l : List Suspect) :
    (r.withRework k l).slot k = { r.slot k with record := some (c.withRework l) } ∧
    Rack.onlySlot k r (r.withRework k l) ∧ (r.withRework k l).notices = r.notices := by
  refine ⟨?_, Rack.onlySlot_trans (r.onlySlot_setList k l) (Rack.onlySlot_modCase _ k _), rfl⟩
  rw [Rack.withRework, Rack.slot_modCase_same, Rack.slot_setList_same, hc, Option.map_some, Option.map_some]
  rfl

variable (some : ∃ x ∈ c.suspects, t.selects (caseModel st c) x = true)
include some

theorem Rack.reworkCase_done {e : EndCause} {v : Verdict} (state : c.state = .done e v) :
    (r.reworkCase st k c t).slot k = { r.slot k with
      record := .some { c with
        state := .ready, stay := Stay.begin ⟨1, 1⟩ ((caseModel st c).stage 1), poolFull := false
        suspects := reworkList (caseModel st c) t c.suspects }
      stamp := (r.slot k).stamp + 1 } ∧
    Rack.onlySlot k r (r.reworkCase st k c t) ∧ (r.reworkCase st k c t).notices = (r.noticeSlot k).notices := by
  have reworked : r.reworkCase st k c t =
      ((r.withRework k (reworkList (caseModel st c) t c.suspects)).beginStay st k ⟨1, 1⟩).enter k .ready := by
    unfold Rack.reworkCase
    rw [if_pos (List.any_eq_true.mpr some), state]
    rfl
  obtain ⟨own, only, notices⟩ := Rack.withRework_spec hc (reworkList (caseModel st c) t c.suspects)
  rw [reworked]
  refine ⟨?_, Rack.onlySlot_trans (Rack.onlySlot_trans only (Rack.onlySlot_modCase _ k _)) (Rack.onlySlot_enter _ k _),
    Rack.notices_noticeSlot_congr k notices⟩
  rw [Rack.slot_enter_same, Rack.slot_beginStay_same, own]
  rfl

theorem Rack.reworkCase_open (state : c.state = .ready ∨ ∃ f, c.state = .faulted f) :
    (r.reworkCase st k c t).slot k = { r.slot k with
      record := .some { c with poolFull := false, suspects := reworkList (caseModel st c) t c.suspects }
      stamp := (r.slot k).stamp + 1 } ∧
    Rack.onlySlot k r (r.reworkCase st k c t) ∧ (r.reworkCase st k c t).notices = r.notices := by
  have reworked : r.reworkCase st k c t =
      (r.withRework k (reworkList (caseModel st c) t c.suspects)).stamp k := by
    unfold Rack.reworkCase
    rw [if_pos (List.any_eq_true.mpr some)]
    rcases state with ready | ⟨f, faulted⟩
    · rw [ready]
      rfl
    · rw [faulted]
      rfl
  have kept (l : List Suspect) : c.withRework l = { c with poolFull := false, suspects := l } := by
    unfold CaseRecord.withRework CaseRecord.withList
    rcases state with ready | ⟨f, faulted⟩
    · rw [ready]
      rfl
    · rw [faulted]
      rfl
  obtain ⟨own, only, notices⟩ := Rack.withRework_spec hc (reworkList (caseModel st c) t c.suspects)
  rw [reworked]
  refine ⟨?_, Rack.onlySlot_trans only (Rack.onlySlot_stamp _ k), notices⟩
  rw [Rack.slot_stamp_same, own, kept]

end Case

/-! ## The request (R55) -/

theorem rework_taken {a : ReworkArgs} {s : State} {k : SlotIx} {c : CaseRecord} {t : ReworkTarget}
    (slot : a.slot.toNat = k.val + 1) (use : s.rack.inUse k = true) (hc : (s.rack.slot k).record = some c)
    (stamp : a.stamp = (s.rack.slot k).stamp) (state : c.state.reworkable = true) (target : reworkTarget a = some t)
    (inside : t.within (caseModel s.store c).components.length = true) :
    rework a s = doneCase (s.withRack (s.rack.reworkCase s.store k c t)) k := by
  have limit : s.componentLimit k = (caseModel s.store c).components.length := by
    rw [State.componentLimit, hc]
  unfold rework
  rw [Rack.slotArg_eq slot use, target]
  dsimp only
  rw [limit, inside, if_neg (by decide), hc]
  dsimp only
  rw [if_neg (not_not_intro stamp), state, if_neg (by decide)]

/-- Settles O29. -/
theorem reworkReturnsAFinishedCaseToReady : Obligations.ReworkReturnsAFinishedCaseToReady := by
  intro s a k c selected h slot use hc stamp state named
  obtain ⟨t, target, inside, selects⟩ : ∃ t : ReworkTarget, reworkTarget a = some t ∧
      t.within (caseModel s.store c).components.length = true ∧
      ∀ x, t.selects (caseModel s.store c) x = true ↔ selected x := by
    rcases named with ⟨i, range, component, low, high, selected⟩ | ⟨first, last, component, range, order, selected⟩
    · refine ⟨.component i.toNat, ?_, within_iff.mpr ⟨low, high⟩, fun x => beq_iff_eq.trans (selected x).symm⟩
      rw [reworkTarget, range, component]
    · refine ⟨.range first last, ?_, rfl, fun x => (ReworkTarget.selects_range _ first last x).trans (selected x).symm⟩
      rw [reworkTarget, range, component]
      exact if_pos order
  have row : exec (.rework (some a)) s = .next ((s.withRack (s.rack.reworkCase s.store k c t)).answered .done
      (casePrefix (s.rack.reworkCase s.store k c t) k)) :=
    exec_doneCase h (c := .rework (some a)) rfl
      (rework_taken (s := s.completed) slot use hc stamp state target inside)
  obtain ⟨members, length, order⟩ := reworkList_spec (l := c.suspects) selects
  refine ⟨fun ⟨x, mem, chosen⟩ => ?_, fun none => ?_⟩
  · have some : ∃ x ∈ c.suspects, t.selects (caseModel s.store c) x = true := ⟨x, mem, (selects x).mpr chosen⟩
    by_cases finished : ∃ e v, c.state = .done e v
    · obtain ⟨e, v, done⟩ := finished
      obtain ⟨own, only, notices⟩ := Rack.reworkCase_done hc some done
      refine ⟨_, _, row, own, members, length, order, only, fun _ _ _ => ⟨rfl, notices⟩, fun other => ?_⟩
      rw [done] at other
      rcases other with h | ⟨f, h⟩
      · cases h
      · cases h
    · have other : c.state = .ready ∨ ∃ f, c.state = .faulted f := by
        cases at' : c.state with
        | ready => exact .inl rfl
        | faulted f => exact .inr ⟨f, rfl⟩
        | done e v => exact absurd ⟨e, v, at'⟩ finished
        | _ => rw [at'] at state; cases state
      obtain ⟨own, only, notices⟩ := Rack.reworkCase_open hc some other
      exact ⟨_, _, row, own, members, length, order, only, fun e v done => absurd ⟨e, v, done⟩ finished,
        fun _ => ⟨rfl, notices⟩⟩
  · have same := Rack.reworkCase_unselected (st := s.store) (r := s.rack) (k := k) (t := t) fun x mem chosen =>
      none x mem ((selects x).mp chosen)
    rw [same] at row
    exact ⟨_, row, s.rack.slot_stamp_same k, s.rack.onlySlot_stamp k, rfl⟩

end Sys2Proof.Machine
end

section
/-! SUSPECT LIST and SUSPECT SWEEP (R63, R64). -/

namespace Sys2Proof.Machine

/-! ## Entries of a list (R63) -/

theorem length_suspectEntries (m : Model) (rank : Nat) (l : List Suspect) : (suspectEntries m rank l).length = l.length := by
  induction l generalizing rank with
  | nil => rfl
  | cons x xs ih => rw [suspectEntries, List.length_cons, List.length_cons, ih]

theorem getElem?_suspectEntries (m : Model) (rank : Nat) (l : List Suspect) (i : Nat) :
    (suspectEntries m rank l)[i]? = l[i]?.map (suspectBytes m (rank + i)) := by
  induction l generalizing rank i with
  | nil => rfl
  | cons x xs ih =>
    cases i with
    | zero => rfl
    | succ i =>
      rw [suspectEntries, List.getElem?_cons_succ, List.getElem?_cons_succ, ih]
      congr 2
      omega

theorem length_positionBytes (p : Option Position) : (positionBytes p).length = 2 := by
  cases p <;> rfl

theorem length_suspectBytes (m : Model) (rank : Nat) (x : Suspect) : (suspectBytes m rank x).length = 30 := by
  simp [suspectBytes, length_positionBytes]

theorem length_of_mem_suspectEntries {m : Model} {rank : Nat} {l : List Suspect} {e : List Byte}
    (mem : e ∈ suspectEntries m rank l) : e.length = 30 := by
  obtain ⟨i, at'⟩ := List.mem_iff_getElem?.mp mem
  rw [getElem?_suspectEntries] at at'
  obtain ⟨x, -, rfl⟩ := Option.map_eq_some_iff.mp at'
  exact length_suspectBytes m _ x

/-- The marks of an entry. -/
theorem suspectMarks_eq (x : Suspect) :
    mark x.recurred 1 ||| mark x.firstSeen.isSome 2 ||| mark x.lastSeen.isSome 4 =
      ((if x.recurred then 1 else 0) ||| (if x.firstSeen = none then 0 else 2) |||
        (if x.lastSeen = none then 0 else 4) : Byte) := by
  cases x.firstSeen <;> cases x.lastSeen <;> rfl

theorem suspectList_taken {a : SuspectListArgs} {s : State} {k : SlotIx} {c : CaseRecord} (slot : a.slot.toNat = k.val + 1)
    (use : s.rack.inUse k = true) (hc : (s.rack.slot k).record = some c) (low : 1 ≤ a.firstRank.toNat)
    (high : a.firstRank.toNat ≤ 24) :
    suspectList a s = done s (listBody s.store s.rack k c a.firstRank.toNat) := by
  rw [suspectList, within_iff.mpr ⟨low, high⟩, if_neg (by decide), State.onCase_open slot use hc]

/-! ## Entries of a sweep (R64) -/

theorem Rack.sweepEntry_isSome {r : Rack} {m : ModelIx} {n : Nat} {k : SlotIx} : (r.sweepEntry m n k).isSome = true ↔
    r.inUse k = true ∧ ∃ c, (r.slot k).record = some c ∧ c.model = m ∧ ∃ x ∈ c.suspects, x.component = n := by
  have held (l : List Suspect) : (suspectFor n l).isSome = true ↔ ∃ x ∈ l, x.component = n := by
    simp [suspectFor]
  unfold Rack.sweepEntry
  cases r.inUse k with
  | false => simp
  | true =>
    cases (r.slot k).record with
    | none => simp
    | some c =>
      by_cases model : c.model = m
      · simp [model, held]
      · simp [model]

theorem Rack.sweepEntry_some {r : Rack} {m : ModelIx} {n : Nat} {k : SlotIx} {c : CaseRecord} {x : Suspect}
    (use : r.inUse k = true) (hc : (r.slot k).record = some c) (model : c.model = m)
    (held : suspectFor n c.suspects = some x) : r.sweepEntry m n k = some (sweepBytes k c x) := by
  rw [Rack.sweepEntry, if_pos use, hc, Option.bind_some, if_pos model, held, Option.map_some]

/-- What a function that gives some values only makes of a list, place by place. -/
theorem getElem?_filterMap_eq {α β : Type} (f : α → Option β) (l : List α) {i : Nat} {a : α}
    (at' : (l.filter fun a => (f a).isSome)[i]? = some a) : (l.filterMap f)[i]? = f a := by
  have same : (l.filterMap f).map some = (l.filter fun a => (f a).isSome).map f := by
    rw [List.map_filterMap_some_eq_filter_map_isSome, List.filter_map]
    rfl
  have place := congrArg (·[i]?) same
  simp only [List.getElem?_map, at', Option.map_some] at place
  obtain ⟨b, hb, same⟩ := Option.map_eq_some_iff.mp place
  rw [hb, same]

theorem length_filterMap_eq {α β : Type} (f : α → Option β) (l : List α) :
    (l.filterMap f).length = (l.filter fun a => (f a).isSome).length := by
  rw [List.length_filterMap_eq_countP, List.countP_eq_length_filter]

theorem suspectSweep_taken {a : SweepArgs} {s : State} {m : ModelIx} (model : a.model.toNat = m.val + 1)
    (state : (s.store.slots[m]).state = .valid ∨ (s.store.slots[m]).state = .locked) (idle : s.store.clearing = false)
    (low : 1 ≤ a.component.toNat) (high : a.component.toNat ≤ (s.store.model m).components.length) :
    suspectSweep a s = done s (counted (allSlots.filterMap (s.rack.sweepEntry m a.component.toNat))) := by
  have component : s.store.sweepComponent m a.component.toNat = true := by
    rw [Store.sweepComponent]
    have holds : ((s.store.slots[m]).state == .valid || (s.store.slots[m]).state == .locked) = true := by
      rcases state with h | h <;> rw [h] <;> rfl
    exact within_iff.mpr ⟨low, by rwa [if_pos holds]⟩
  have free : ((s.store.slots[m]).state == .programming || s.store.clearing) = false := by
    rw [idle]
    rcases state with h | h <;> rw [h] <;> rfl
  unfold suspectSweep
  rw [modelArg_eq model]
  dsimp only
  rw [component, if_neg (by decide), if_neg (Store.noModel_held state), free, if_neg (by decide)]

/-- Settles O27. -/
theorem suspectReadsListEntries : Obligations.SuspectReadsListEntries := by
  refine ⟨fun s a k c h slot use hc low high => ?_, fun s a m h model state idle low high => ?_⟩
  · have row := exec_taken h (c := .suspectList (some a)) rfl
    rw [suspectList_taken (s := s.completed) slot use hc low high, State.after_done] at row
    refine ⟨suspectEntries (caseModel s.store c) a.firstRank.toNat ((c.suspects.drop (a.firstRank.toNat - 1)).take 10), ?_,
      ?_, fun e mem => length_of_mem_suspectEntries mem, fun i x y small at' named entry => ?_⟩
    · rw [row, listBody, length_suspectEntries]
      simp [halfBytes, yesNo, slotNumber]
    · rw [length_suspectEntries, List.length_take, List.length_drop]
    · have shown : ((c.suspects.drop (a.firstRank.toNat - 1)).take 10)[i]? = some x := by
        rw [List.getElem?_take_of_lt small, List.getElem?_drop, at']
      have cls : byte y.cls.code = (match y.cls with
          | .memory => (0 : Byte) | .storage => 1 | .processor => 2 | .io => 3 | .power => 4 | .clock => 5 | .path => 6) := by
        cases y.cls <;> rfl
      have state : byte x.state.code =
          (match x.state with | .opened => (0 : Byte) | .confirmed => 1 | .cleared => 2 | .reworked => 3) := by
        cases x.state <;> rfl
      have place (q : Option Position) : positionBytes q =
          (match q with | none => [(0 : Byte), 0] | some p => [byte p.cycle, byte p.stage]) := by
        cases q <;> rfl
      rw [getElem?_suspectEntries, shown, Option.map_some, suspectBytes, entry, suspectMarks_eq, place, place, state]
      dsimp only [Option.map_some, Option.getD_some]
      rw [cls] <;> rfl
  · have row := exec_taken h (c := .suspectSweep (some a)) rfl
    rw [suspectSweep_taken (s := s.completed) model state idle low high, State.after_done, counted,
      length_filterMap_eq] at row
    refine ⟨_, _, row, List.Pairwise.filter _ (by decide), fun k => ?_, length_filterMap_eq _ _,
      fun i k c x at' hc held => ?_⟩
    · rw [List.mem_filter]
      exact ⟨fun h => Rack.sweepEntry_isSome.mp h.2, fun h => ⟨mem_allSlots k, Rack.sweepEntry_isSome.mpr h⟩⟩
    · have found := (List.mem_filter.mp (List.mem_of_getElem? at')).2
      obtain ⟨use, d, hd, model, -⟩ := Rack.sweepEntry_isSome.mp found
      obtain rfl : c = d := Option.some.inj (hc.symm.trans hd)
      rw [getElem?_filterMap_eq _ _ at', Rack.sweepEntry_some use hc model held, sweepBytes]
      have state : byte x.state.code =
          (match x.state with | .opened => (0 : Byte) | .confirmed => 1 | .cleared => 2 | .reworked => 3) := by
        cases x.state <;> rfl
      rw [state] <;> rfl

end Sys2Proof.Machine
end
